-- ==== Sys2Proof/Word.lean ====
section
/-! DEFINITION. The word types of the FCT: frames, angles, and the request a requester presents (R6, R50, R55). -/

namespace Sys2Proof

/-- A frame on the wire and the operand `arg` of a request: one unsigned 16-bit value, bit 15 the most significant (R6, R50). -/
abbrev Frame := BitVec 16

/-- A raw angle, ten bits, in [0, RESOLUTION) (R10, R4 `ANGLE_BITS`). -/
abbrev Angle := BitVec 10

/-- The 14-bit operand of an encoder: a register address or a datum (R4 `ADDR_BITS`, `DATA_BITS`). -/
abbrev Operand14 := BitVec 14

/-- A request as the block's port carries it: the operation select code and the single operand (R55). -/
structure Request where
  /-- `req_op`, four bits (R58). -/
  reqOp : BitVec 4
  /-- `arg`, sixteen bits (R59). -/
  arg : Frame
  deriving DecidableEq, Repr

end Sys2Proof
end

