-- ==== Sys2Proof/Config.lean ====
section
/-! DEFINITION. The parameters of R4 and the free values. The fixed parameters are constants. The OPEN ones are the fields of
Params, the argument of the parametric machine (execWith, stepWith, State.resetWith, machineWith); Config.params holds the
values R4 gives them as defaults, and for those without a default an opaque constant. Every value the spec leaves
unspecified is an opaque constant too: nothing can be proved of what it is. -/

namespace Sys2Proof

/-- `RESOLUTION`, the number of raw angle values per revolution (R4, R5). -/
def Config.resolution : Nat := 1024

/-- `WRAP_BOUND` = RESOLUTION / 4 = 256 (R4). -/
def Config.wrapBound : Nat := Config.resolution / 4

/-- `WRAP_CEILING` = RESOLUTION - WRAP_BOUND = 768 (R4). -/
def Config.wrapCeiling : Nat := Config.resolution - Config.wrapBound

/-- The default `RW_READ` = 1 (R4; the spec's decision D6; log entry 9). -/
def Config.rwRead : BitVec 1 := 1#1

/-- The default `WDATA_DC` = 0 (R4; D7; log entry 9). -/
def Config.wdataDc : BitVec 1 := 0#1

/-- The default `MIRROR_RESET` = 0 (R4, R24; D18; log entry 9). -/
def Config.mirrorReset : Bool := false

/-- The default `TURN_WIDTH`: none is the normative unbounded integer (R4, R11; D13; log entry 8). -/
def Config.turnWidth : Option Nat := none

/-- `ADDR_ANGLE`, the sensor's angle register (R42): no value in the spec (D27; log entry 14). -/
opaque Config.addrAngle : Operand14
/-- `ADDR_GAIN_CONTROL` (R42; D27; log entry 14). -/
opaque Config.addrGainControl : Operand14
/-- `ADDR_ERROR_STATUS` (R42; D27; log entry 14). -/
opaque Config.addrErrorStatus : Operand14
/-- `ADDR_CLEAR_ERROR` (R42; D27; log entry 14). -/
opaque Config.addrClearError : Operand14
/-- `ADDR_SOFTWARE_RESET` (R42; D27; log entry 14). -/
opaque Config.addrSoftwareReset : Operand14
/-- `ADDR_MASTER_RESET` (R42; D27; log entry 14). -/
opaque Config.addrMasterReset : Operand14
/-- `ADDR_NOP` (R42; D27; log entry 14). -/
opaque Config.addrNop : Operand14
/-- `NOP_FRAME`, the word sent as a no-op frame (R37): no value in the spec (D28; log entry 14). -/
opaque Config.nopFrame : Frame

/-- The OPEN parameters of R4, an argument of the model (section "Open parameters in one list" of
spec/92_eei_decisions.md). `REINIT_POLICY`, the host's alone, is an argument of the re-warm-up (log entry 16). -/
structure Params where
  /-- `TURN_WIDTH`: none for the unbounded integer, `some W` for a counter of W bits, W at least 1 (R11). -/
  turnWidth : Option Nat
  /-- `RW_READ`: the R/W bit of a read command (R51). -/
  rwRead : BitVec 1
  /-- `WDATA_DC`: the don't-care slot of a write-data frame (R52). -/
  wdataDc : BitVec 1
  /-- `MIRROR_RESET`: the value of MIRROR after reset (R24). -/
  mirrorReset : Bool
  /-- `ADDR_ANGLE` (R42). -/
  addrAngle : Operand14
  /-- `ADDR_GAIN_CONTROL` (R42). -/
  addrGainControl : Operand14
  /-- `ADDR_ERROR_STATUS` (R42). -/
  addrErrorStatus : Operand14
  /-- `ADDR_CLEAR_ERROR` (R42). -/
  addrClearError : Operand14
  /-- `ADDR_SOFTWARE_RESET` (R42). -/
  addrSoftwareReset : Operand14
  /-- `ADDR_MASTER_RESET` (R42). -/
  addrMasterReset : Operand14
  /-- `ADDR_NOP` (R42). -/
  addrNop : Operand14
  /-- `NOP_FRAME`: the word sent as a no-op frame (R37). -/
  nopFrame : Frame
  deriving DecidableEq, Repr

/-- `RW_WRITE` = NOT `RW_READ`: the R/W bit of a write-address command (R4, R51). -/
def Params.rwWrite (p : Params) : BitVec 1 := ~~~p.rwRead

/-- The parameters at the defaults of R4, which the machine `core` is built with. -/
def Config.params : Params where
  turnWidth := Config.turnWidth
  rwRead := Config.rwRead
  wdataDc := Config.wdataDc
  mirrorReset := Config.mirrorReset
  addrAngle := Config.addrAngle
  addrGainControl := Config.addrGainControl
  addrErrorStatus := Config.addrErrorStatus
  addrClearError := Config.addrClearError
  addrSoftwareReset := Config.addrSoftwareReset
  addrMasterReset := Config.addrMasterReset
  addrNop := Config.addrNop
  nopFrame := Config.nopFrame

/-! The free values (log entries 5 and 7): each is applied to State.freeCount, which the drawing step advances. -/

/-- LAST when a reset is released: unspecified (R24, U3). -/
opaque Config.freeLast : Nat → Angle
/-- HOME when a reset is released: unspecified (R24, U3). -/
opaque Config.freeHome : Nat → Angle
/-- `val` of a refused response: unspecified (R57, U22). -/
opaque Config.freeVal : Nat → Int
/-- `parity_ok` of a refused response: unspecified (R57, U22). -/
opaque Config.freeParityOk : Nat → Bool
/-- `error_flag` of a refused response: unspecified (R57, U22). -/
opaque Config.freeErrorFlag : Nat → Bool
/-- `alarm` of a refused response: unspecified (R57, U22). -/
opaque Config.freeAlarm : Nat → BitVec 2
/-- `fault_req` of a refused response: unspecified (R57, U22). -/
opaque Config.freeFaultReq : Nat → Bool
/-- `accepted` of a refused response: unspecified (R57, U22). -/
opaque Config.freeAccepted : Nat → Bool
/-- `turn_inc` of a refused response: unspecified (R57, U22). -/
opaque Config.freeTurnInc : Nat → Bool
/-- `turn_dec` of a refused response: unspecified (R57, U22). -/
opaque Config.freeTurnDec : Nat → Bool

end Sys2Proof
end

