-- ==== Sys2Proof/Machine/Operands.lean ====
section
/-! DEFINITION. Operand assembly (R59): how each operand and field is taken from `arg`, how a frame's body is put
together (R51, R52), and the mirroring of an angle (R90). -/

namespace Sys2Proof.Machine

/-- `arg[15:14] = 0`: the operand of an encoder is in range (R60). -/
def operandInRange (arg : Frame) : Bool := arg.extractLsb' 14 2 == 0#2

/-- `arg[13:0]`: the address or datum of an encoder (R59). -/
def operand14 (arg : Frame) : Operand14 := arg.extractLsb' 0 14

/-- The body of a command frame, `(rw << 15) OR (address << 1)`, bit 0 clear (R51, R73, R75). -/
def cmdBody (rw : BitVec 1) (address : Operand14) : Frame :=
  (rw.setWidth 16 <<< 15) ||| (address.setWidth 16 <<< 1)

/-- The body of a write-data frame, `(data << 2) OR (dc << 1)`, bit 0 clear (R52, R77). -/
def wdataBody (dc : BitVec 1) (data : Operand14) : Frame :=
  (data.setWidth 16 <<< 2) ||| (dc.setWidth 16 <<< 1)

/-- `word[11:2]`: the raw angle of a response of the angle register (R54, R59). -/
def angleField (word : Frame) : Angle := word.extractLsb' 2 10

/-- `word[13:2]`: the payload of a response of any other register (R53, R59). -/
def genericField (word : Frame) : BitVec 12 := word.extractLsb' 2 12

/-- `word[13:12]`: the two alarm flags of a response of the angle register (R54; D8). -/
def alarmField (word : Frame) : BitVec 2 := word.extractLsb' 12 2

/-- `word[1]`: the error flag of a response (R53, R54). -/
def errorBit (word : Frame) : Bool := word.getLsbD 1

/-- `MIRROR_FN(a, m)`: R - 1 - a when mirrored, a otherwise (R90). -/
def mirrorFn (a : Angle) (m : Bool) : Angle :=
  if m then BitVec.ofNat 10 (Config.resolution - 1 - a.toNat) else a

end Sys2Proof.Machine
end

