-- ==== Sys2Proof/Machine/Flags.lean ====
section
/-! DEFINITION. Every flag computation: parity (R70), the fault request (R123), the wrap test (R90, R95), and the range of a
finite turn counter (R11, U1). -/

namespace Sys2Proof.Machine

/-- The exclusive-or of bits k-1 down to 0 of `v`. -/
def xorBelow {n : Nat} (v : BitVec n) : Nat → Bool
  | 0 => false
  | k + 1 => (v.getLsbD k).xor (xorBelow v k)

/-- `xor_reduce(v)`: the exclusive-or of all bits of `v` (R7). -/
def xorReduce {n : Nat} (v : BitVec n) : Bool := xorBelow v n

/-- How many of bits k-1 down to 0 of `v` are ones. -/
def onesBelow {n : Nat} (v : BitVec n) : Nat → Nat
  | 0 => 0
  | k + 1 => (v.getLsbD k).toNat + onesBelow v k

/-- `popcount(v)`: the number of one bits of `v` (R7). -/
def popcount {n : Nat} (v : BitVec n) : Nat := onesBelow v n

/-- `PAR15(w)`: the parity of the upper fifteen bits (R70). -/
def par15 (w : Frame) : Bool := xorReduce (w.extractLsb' 1 15)

/-- `PARITY_OK(w)`: all sixteen bits hold an even number of ones (R70). -/
def parityOk (w : Frame) : Bool := !xorReduce w

/-- `SET_PAR(b)`: a body with its even-parity bit in bit 0 (R70). -/
def setPar (b : Frame) : Frame := b ||| (BitVec.ofBool (par15 b)).setWidth 16

/-- `fault_req = (NOT parity_ok) OR error_flag` (R123). -/
def faultRequest (word : Frame) : Bool := !parityOk word || errorBit word

/-- `WRAP(prev, new)`: +1 on a forward crossing, -1 on a backward crossing, 0 otherwise; strict on the previous sample,
not strict on the new one (R90, R95). -/
def wrap (prev new : Angle) : Int :=
  if Config.wrapCeiling < prev.toNat ∧ new.toNat ≤ Config.wrapBound then 1
  else if prev.toNat < Config.wrapBound ∧ Config.wrapCeiling ≤ new.toNat then -1
  else 0

/-- TURN may take the value `t`: always with the unbounded counter, in [-2^(W-1), 2^(W-1) - 1] with one of W bits (R11). -/
def turnFits (width : Option Nat) (t : Int) : Bool :=
  match width with
  | none => true
  | some w => decide (-(2 ^ (w - 1) : Int) ≤ t) && decide (t < (2 ^ (w - 1) : Int))

end Sys2Proof.Machine
end

