-- ==== Sys2Proof/Machine/State.lean ====
section
/-! DEFINITION. The state of the block (R10 to R16), its input and output ports as plain data (R55 to R57), the state after
reset (R24, R140), and the ways a step can stop. -/

namespace Sys2Proof.Machine

/-- The closed list of reasons for which the block refuses a request (R62). A refusal is a NEXT state with
`refused` = 1 in the response, not a stop of the machine (R8, R56; log entry 4). -/
inductive RefuseReason where
  /-- `req_op` is 0xC to 0xF (R61). -/
  | reservedOp
  /-- An encoder's `arg[15:14]` is not 0 (R60). -/
  | operandRange
  /-- TRK_SAMPLE, SET_HOME, GET_ANGLE, GET_TOTAL or GET_DELTA while INITD = 0 (R93). -/
  | notInitialised
  deriving DecidableEq, Repr

/-- The response of one operation (R57). A field an operation does not assign is driven 0: the defaults. -/
structure Response where
  /-- `val`, the result value: a frame, a payload, a raw angle or a signed position. -/
  val : Int := 0
  /-- `parity_ok`: the operand word has an even number of ones. -/
  parityOk : Bool := false
  /-- `error_flag`: bit 1 of the operand word. -/
  errorFlag : Bool := false
  /-- `alarm`: bits 13:12 of the operand word. -/
  alarm : BitVec 2 := 0#2
  /-- `fault_req`: the tracker asks for the Fault Manager (R123). -/
  faultReq : Bool := false
  /-- `accepted`: the sample was written to LAST. -/
  accepted : Bool := false
  /-- `turn_inc`: TURN went up by one in this operation. -/
  turnInc : Bool := false
  /-- `turn_dec`: TURN went down by one in this operation. -/
  turnDec : Bool := false
  /-- `refused` together with its reason: present exactly when `refused` = 1 (R62; log entry 3). -/
  refusal : Option RefuseReason := none
  deriving DecidableEq, Repr

/-- The response field `refused` (R57). -/
def Response.refused (r : Response) : Bool := r.refusal.isSome

/-- What stands on the block's inputs during one step (R55, R140). -/
structure PortIn where
  /-- The `reset` input: while it is asserted no request is accepted (R140). -/
  reset : Bool := false
  /-- `req_valid`, the strobe of a request (R55). -/
  reqValid : Bool := false
  /-- The request, of meaning only while `reqValid` holds (R55). -/
  req : Request := { reqOp := 0#4, arg := 0#16 }
  deriving DecidableEq, Repr

/-- The state of the machine: the five registers of the block, its two ports, and the model's counter of free values. -/
structure State where
  /-- LAST: the last accepted raw angle, after mirroring (R10). -/
  last : Angle
  /-- TURN: the signed count of full revolutions (R11). -/
  turn : Int
  /-- HOME: the raw angle treated as logical zero (R12). -/
  home : Angle
  /-- MIRROR: reverses the direction sense (R13). -/
  mirror : Bool
  /-- INITD: an accepted TRK_INIT has happened since reset (R14). -/
  initd : Bool
  /-- What will stand on the inputs at the coming steps, the next step's first; past its end nothing is presented
  (log entry 1). -/
  inputs : List PortIn
  /-- The response the last step drove; none where it performed no operation (R18; log entry 2). -/
  rsp : Option Response
  /-- Which free value comes next: the model's own field (log entry 5). -/
  freeCount : Nat
  deriving DecidableEq, Repr

/-- The machine with the parameters `p` right after reset (R24, R140): TURN, MIRROR and INITD as the spec says; LAST and HOME,
which it leaves unspecified, 0 (DESIGN CHOICE, unsafe, log entry 6); nothing presented, no response driven. -/
def State.resetWith (p : Params) : State where
  last := 0#10
  turn := 0
  home := 0#10
  mirror := p.mirrorReset
  initd := false
  inputs := []
  rsp := none
  freeCount := 0

/-- The machine right after reset, at the default parameters of R4. -/
def State.reset : State := State.resetWith Config.params

/-- The faults of the machine: none. The block raises no exception and takes no trap (R120), so no meaning answers with a
fault. -/
inductive Fault where
  deriving DecidableEq, Repr

/-- The reasons the MODEL gives a step no result. The block's own refusals are RefuseReason. -/
inductive Refusal where
  /-- Raised by an arm of exec whose instruction has no meaning yet (safe: nothing is proved of it). No arm is left so. -/
  | notModelled (mnemonic : String)
  /-- Raised by TRK_SAMPLE where TURN_WIDTH is finite and TURN would leave its range: the spec gives no effect, and asks
  for a refusal (U1, R11, R152; safe). With the normative unbounded TURN_WIDTH it is never raised (log entry 8). -/
  | turnOutOfRange
  deriving DecidableEq, Repr

end Sys2Proof.Machine
end

