-- ==== Sys2Proof/Machine/Ops.lean ====
section
/-! DEFINITION. The operations the meanings share: driving a response, refusing a request, the gate of R93, the reset input,
the input port. The hardware has no exception to take and none to return from (R120, R126, R127). -/

namespace Sys2Proof.Machine

/-- The outcome of an operation of the block. -/
abbrev Result := Host.Outcome State Fault Refusal

/-- Drive a response; nothing else changes (R57). -/
def State.respond (s : State) (r : Response) : State := { s with rsp := some r }

/-- The response of a refused request: `refused` = 1, and every other field unspecified, that is a free value
(R8, R57, U22; log entry 5). -/
def refusedResponse (n : Nat) (why : RefuseReason) : Response where
  val := Config.freeVal n
  parityOk := Config.freeParityOk n
  errorFlag := Config.freeErrorFlag n
  alarm := Config.freeAlarm n
  faultReq := Config.freeFaultReq n
  accepted := Config.freeAccepted n
  turnInc := Config.freeTurnInc n
  turnDec := Config.freeTurnDec n
  refusal := some why

/-- `refuse(<reason>)`: no register changes, `refused` is driven 1 (R8, R62). -/
def State.refuse (s : State) (why : RefuseReason) : State :=
  { s with rsp := some (refusedResponse s.freeCount why), freeCount := s.freeCount + 1 }

/-- Complete an operation that writes no register with the response `r`. -/
def answer (s : State) (r : Response) : Result := .next (s.respond r)

/-- Complete a request by refusing it (R56: the step is total; log entry 4). -/
def turnAway (s : State) (why : RefuseReason) : Result := .next (s.refuse why)

/-- The gate of R93: an operation that reads LAST or HOME is refused while INITD = 0. -/
def ifInitialised (s : State) (k : Result) : Result :=
  if s.initd then k else turnAway s .notInitialised

/-- The fields every decoder of an angle word drives the same way: `parity_ok`, `error_flag`, `alarm` (R79, R91, R94). -/
def angleReport (word : Frame) : Response where
  parityOk := parityOk word
  errorFlag := errorBit word
  alarm := alarmField word

/-- What the two sampling operations report of their word: the fields of a decode and `fault_req` (R91, R94, R123). -/
def trackerReport (word : Frame) : Response :=
  { angleReport word with faultReq := faultRequest word }

/-- The continuous angle, `TURN * R + LAST` (R102). -/
def State.total (s : State) : Int := s.turn * Config.resolution + s.last.toNat

/-- The continuous angle measured from home, `TURN * R + LAST - HOME` (R103). -/
def State.delta (s : State) : Int := s.total - s.home.toNat

/-- A step with `reset` asserted (R140): TURN, MIRROR and INITD take their reset values, LAST and HOME become unspecified,
that is free values (R24, U3; log entry 7), and no response is driven. -/
def State.applyReset (s : State) (p : Params := Config.params) : State :=
  { s with
    last := Config.freeLast s.freeCount
    turn := 0
    home := Config.freeHome s.freeCount
    mirror := p.mirrorReset
    initd := false
    rsp := none
    freeCount := s.freeCount + 1 }

/-- A step with no request presented: no register changes and no response is driven (R56, R18; log entry 2). -/
def State.idle (s : State) : State := { s with rsp := none }

/-- What stands on the inputs at this step: nothing past the end of the list (log entry 1). -/
def State.portNow (s : State) : PortIn := s.inputs.headD {}

/-- The inputs move on by one step. -/
def State.portAdvance (s : State) : State := { s with inputs := s.inputs.tail }

/-- The request `r` stands on the inputs at the next step, in place of what stood there. -/
def State.present (s : State) (r : Request) : State :=
  { s with inputs := { reset := false, reqValid := true, req := r } :: s.inputs.tail }

end Sys2Proof.Machine
end

