-- ==== Sys2Proof/Syntax.lean ====
section
/-! DEFINITION. The twelve operations of FCT-OPS version 1 (R58), one constructor per row of the operation table. An
operand keeps the 16 bits the port carries; the ignored bits of R63 are dropped. -/

namespace Sys2Proof

/-- The operations of the block, in the order of their select codes 0x0 to 0xB (R58). -/
inductive Instr where
  /-- ENC_READ: build the command frame that asks to read a register (R73); `arg[13:0]` is the address. -/
  | encRead (arg : Frame)
  /-- ENC_WADDR: build the command frame that names the register to write (R75); `arg[13:0]` is the address. -/
  | encWaddr (arg : Frame)
  /-- ENC_WDATA: build the frame that carries the data of a write (R77); `arg[13:0]` is the datum. -/
  | encWdata (arg : Frame)
  /-- DEC_ANGLE: parse a response of the angle register (R79). -/
  | decAngle (word : Frame)
  /-- DEC_GENERIC: parse a response of any other register (R80). -/
  | decGeneric (word : Frame)
  /-- TRK_INIT: establish the first sample and the home reference (R91). -/
  | trkInit (word : Frame)
  /-- TRK_SAMPLE: take one raw sample into the tracker (R94). -/
  | trkSample (word : Frame)
  /-- SET_HOME: make the current position the zero of the delta (R99). -/
  | setHome
  /-- SET_MIRROR: set the direction sense (R100); `m` is `arg[0]`. -/
  | setMirror (m : Bool)
  /-- GET_ANGLE: the single-turn angle (R101). -/
  | getAngle
  /-- GET_TOTAL: the continuous angle (R102). -/
  | getTotal
  /-- GET_DELTA: the continuous angle measured from home (R103). -/
  | getDelta
  deriving DecidableEq, Repr

end Sys2Proof
end

