-- ==== Sys2Proof/Machine/Codec.lean ====
section
/-! DEFINITION. The five codec operations (spec/40_codec.md). None reads or writes a register. An encoder is written
for any parameters `p` (`…With p`), and its meaning in the machine is it at the defaults of R4. -/

namespace Sys2Proof.Machine

/-- What the three encoders share: refuse an operand wider than 14 bits, otherwise drive the frame, its body completed
with the parity bit (R60, R73, R75, R77). -/
def encodeFrame (body : Operand14 → Frame) (arg : Frame) (s : State) : Result :=
  if operandInRange arg then answer s { val := ((setPar (body (operand14 arg))).toNat : Int) }
  else turnAway s .operandRange

/-- ENC_READ with the parameters `p` (R73). -/
def encReadWith (p : Params) (arg : Frame) (s : State) : Result := encodeFrame (cmdBody p.rwRead) arg s

/-- ENC_WADDR with the parameters `p` (R75). -/
def encWaddrWith (p : Params) (arg : Frame) (s : State) : Result := encodeFrame (cmdBody p.rwWrite) arg s

/-- ENC_WDATA with the parameters `p` (R77). -/
def encWdataWith (p : Params) (arg : Frame) (s : State) : Result := encodeFrame (wdataBody p.wdataDc) arg s

/-- ENC_READ (R73). -/
def execEncRead (arg : Frame) (s : State) : Result := encReadWith Config.params arg s

/-- ENC_WADDR (R75). -/
def execEncWaddr (arg : Frame) (s : State) : Result := encWaddrWith Config.params arg s

/-- ENC_WDATA (R77). -/
def execEncWdata (arg : Frame) (s : State) : Result := encWdataWith Config.params arg s

/-- DEC_ANGLE (R79): never refused; `fault_req` is not driven by a decode. -/
def execDecAngle (word : Frame) (s : State) : Result :=
  answer s { angleReport word with val := ((angleField word).toNat : Int) }

/-- DEC_GENERIC (R80): never refused; a generic response has no alarm field. -/
def execDecGeneric (word : Frame) (s : State) : Result :=
  answer s { val := ((genericField word).toNat : Int), parityOk := parityOk word, errorFlag := errorBit word }

end Sys2Proof.Machine
end

