-- ==== Sys2Proof/Machine/Tracker.lean ====
section
/-! DEFINITION. The seven tracker operations (spec/41_tracker.md). Every read is of the state before the operation, and all
writes land together (R8). -/

namespace Sys2Proof.Machine

/-- TRK_INIT (R91): a word with good parity sets LAST and HOME to its mirrored angle, clears TURN and sets INITD; one with
bad parity changes no register. -/
def execTrkInit (word : Frame) (s : State) : Result :=
  if parityOk word then
    let a := mirrorFn (angleField word) s.mirror
    .next { s with
      last := a
      home := a
      turn := 0
      initd := true
      rsp := some { trackerReport word with accepted := true, val := (a.toNat : Int) } }
  else answer s (trackerReport word)

/-- TRK_SAMPLE with a turn counter of the given width (R94, R95, R96; U1 for a finite width). -/
def sampleAt (width : Option Nat) (word : Frame) (s : State) : Result :=
  ifInitialised s <|
    if parityOk word then
      let a := mirrorFn (angleField word) s.mirror
      let k := wrap s.last a
      if turnFits width (s.turn + k) then
        .next { s with
          turn := s.turn + k
          last := a
          rsp := some { trackerReport word with
            accepted := true
            turnInc := k == 1
            turnDec := k == -1
            val := (a.toNat : Int) } }
      else .refused .turnOutOfRange
    else answer s { trackerReport word with val := (s.last.toNat : Int) }

/-- TRK_SAMPLE with the parameters `p` (R94). -/
def trkSampleWith (p : Params) (word : Frame) (s : State) : Result := sampleAt p.turnWidth word s

/-- TRK_SAMPLE (R94). -/
def execTrkSample (word : Frame) (s : State) : Result := trkSampleWith Config.params word s

/-- SET_HOME (R99): TURN <- 0, HOME <- LAST. -/
def execSetHome (s : State) : Result :=
  ifInitialised s (.next { s with turn := 0, home := s.last, rsp := some {} })

/-- SET_MIRROR (R100): MIRROR <- m; never refused. -/
def execSetMirror (m : Bool) (s : State) : Result :=
  .next { s with mirror := m, rsp := some {} }

/-- GET_ANGLE (R101). -/
def execGetAngle (s : State) : Result := ifInitialised s (answer s { val := (s.last.toNat : Int) })

/-- GET_TOTAL (R102). -/
def execGetTotal (s : State) : Result := ifInitialised s (answer s { val := s.total })

/-- GET_DELTA (R103). -/
def execGetDelta (s : State) : Result := ifInitialised s (answer s { val := s.delta })

end Sys2Proof.Machine
end

