-- ==== Sys2Proof/Machine/Dispatch.lean ====
section
/-! DEFINITION. The meaning of each operation, one arm per constructor of Instr (R58). -/

namespace Sys2Proof.Machine

def exec (i : Instr) (s : State) : Host.Outcome State Fault Refusal :=
  match i with
  | .encRead arg => Sys2Proof.Machine.execEncRead arg s
  | .encWaddr arg => Sys2Proof.Machine.execEncWaddr arg s
  | .encWdata arg => Sys2Proof.Machine.execEncWdata arg s
  | .decAngle word => Sys2Proof.Machine.execDecAngle word s
  | .decGeneric word => Sys2Proof.Machine.execDecGeneric word s
  | .trkInit word => Sys2Proof.Machine.execTrkInit word s
  | .trkSample word => Sys2Proof.Machine.execTrkSample word s
  | .setHome => Sys2Proof.Machine.execSetHome s
  | .setMirror m => Sys2Proof.Machine.execSetMirror m s
  | .getAngle => Sys2Proof.Machine.execGetAngle s
  | .getTotal => Sys2Proof.Machine.execGetTotal s
  | .getDelta => Sys2Proof.Machine.execGetDelta s

end Sys2Proof.Machine
end

