-- ==== Sys2Proof/WellFormed.lean ====
section
/-! DEFINITION. What makes an operation well formed: the operand of an encoder fits in 14 bits (R60); every other operand
may be any value (R64). The block refuses an operation that is not well formed; see Machine/Codec.lean. -/

namespace Sys2Proof

/-- `arg[15:14]` is 0: the value fits in the 14 bits of an address or a datum (R60). -/
abbrev FitsOperand14 (arg : Frame) : Prop := arg.toNat < 2 ^ 14

/-- The check, operation by operation. -/
def wellFormed (i : Instr) : Bool :=
  match i with
  | .encRead arg => decide (FitsOperand14 arg)
  | .encWaddr arg => decide (FitsOperand14 arg)
  | .encWdata arg => decide (FitsOperand14 arg)
  | .decAngle _ => true
  | .decGeneric _ => true
  | .trkInit _ => true
  | .trkSample _ => true
  | .setHome => true
  | .setMirror _ => true
  | .getAngle => true
  | .getTotal => true
  | .getDelta => true

/-- The well-formed operations. -/
abbrev WellFormed (i : Instr) : Prop := wellFormed i = true

end Sys2Proof
end

