-- ==== Sys2Proof/Decode.lean ====
section
/-! DEFINITION. The decoder of a request (R55, R58, R61, R63), total on every request and rejecting a reserved select code
by name, and the encoder beside it, from the same table. -/

namespace Sys2Proof

/-- Why a request selects no operation. -/
inductive DecodeError where
  /-- `req_op` is 0xC to 0xF (R61); the machine turns it into a refusal `ReservedOp`. -/
  | reservedOp (reqOp : BitVec 4)
  deriving DecidableEq, Repr

/-- A request read from its 20-bit word: `req[19:16] = req_op`, `req[15:0] = arg` (R55). -/
def requestOfWord (w : BitVec 20) : Request :=
  { reqOp := w.extractLsb' 16 4, arg := w.extractLsb' 0 16 }

/-- The 20-bit word of a request (R55). -/
def wordOfRequest (r : Request) : BitVec 20 := r.reqOp ++ r.arg

/-- The operation a request selects, by the select codes of R58. An encoder's operand keeps all 16 bits (R60 is the
encoder's own test); SET_MIRROR keeps `arg[0]`, and the operations without operand keep nothing of `arg` (R63). -/
def decode (r : Request) : Except DecodeError Instr :=
  match r.reqOp.toNat with
  | 0x0 => .ok (.encRead r.arg)
  | 0x1 => .ok (.encWaddr r.arg)
  | 0x2 => .ok (.encWdata r.arg)
  | 0x3 => .ok (.decAngle r.arg)
  | 0x4 => .ok (.decGeneric r.arg)
  | 0x5 => .ok (.trkInit r.arg)
  | 0x6 => .ok (.trkSample r.arg)
  | 0x7 => .ok .setHome
  | 0x8 => .ok (.setMirror (r.arg.getLsbD 0))
  | 0x9 => .ok .getAngle
  | 0xA => .ok .getTotal
  | 0xB => .ok .getDelta
  | _ => .error (.reservedOp r.reqOp)

/-- The operation of a 20-bit request word. -/
def decodeWord (w : BitVec 20) : Except DecodeError Instr := decode (requestOfWord w)

/-- The request that selects an operation (R58); ignored bits of `arg` are written 0 (R63). -/
def encode (i : Instr) : Request :=
  match i with
  | .encRead arg => { reqOp := 0x0#4, arg := arg }
  | .encWaddr arg => { reqOp := 0x1#4, arg := arg }
  | .encWdata arg => { reqOp := 0x2#4, arg := arg }
  | .decAngle word => { reqOp := 0x3#4, arg := word }
  | .decGeneric word => { reqOp := 0x4#4, arg := word }
  | .trkInit word => { reqOp := 0x5#4, arg := word }
  | .trkSample word => { reqOp := 0x6#4, arg := word }
  | .setHome => { reqOp := 0x7#4, arg := 0#16 }
  | .setMirror m => { reqOp := 0x8#4, arg := if m then 1#16 else 0#16 }
  | .getAngle => { reqOp := 0x9#4, arg := 0#16 }
  | .getTotal => { reqOp := 0xA#4, arg := 0#16 }
  | .getDelta => { reqOp := 0xB#4, arg := 0#16 }

/-- The 20-bit word of an operation's request. -/
def encodeWord (i : Instr) : BitVec 20 := wordOfRequest (encode i)

/-- The bits of the request word an operation is read from: all but those R63 says are ignored. -/
def careMask (i : Instr) : BitVec 20 :=
  match i with
  | .encRead _ => 0xFFFFF#20
  | .encWaddr _ => 0xFFFFF#20
  | .encWdata _ => 0xFFFFF#20
  | .decAngle _ => 0xFFFFF#20
  | .decGeneric _ => 0xFFFFF#20
  | .trkInit _ => 0xFFFFF#20
  | .trkSample _ => 0xFFFFF#20
  | .setHome => 0xF0000#20
  | .setMirror _ => 0xF0001#20
  | .getAngle => 0xF0000#20
  | .getTotal => 0xF0000#20
  | .getDelta => 0xF0000#20

/-- The mnemonic of an operation (R58). -/
def mnemonicOf (i : Instr) : String :=
  match i with
  | .encRead _ => "ENC_READ"
  | .encWaddr _ => "ENC_WADDR"
  | .encWdata _ => "ENC_WDATA"
  | .decAngle _ => "DEC_ANGLE"
  | .decGeneric _ => "DEC_GENERIC"
  | .trkInit _ => "TRK_INIT"
  | .trkSample _ => "TRK_SAMPLE"
  | .setHome => "SET_HOME"
  | .setMirror _ => "SET_MIRROR"
  | .getAngle => "GET_ANGLE"
  | .getTotal => "GET_TOTAL"
  | .getDelta => "GET_DELTA"

/-- A row of the operation table: the request words w with `w AND mask = pattern` are the row's (R55). -/
structure OpRow where
  mnemonic : String
  pattern : BitVec 20
  mask : BitVec 20
  deriving DecidableEq, Repr

/-- The operation table as spec/opcode_table.json gives it, with the `match` and `mask` of each row (R55, R58). -/
def opTable : List OpRow :=
  [ { mnemonic := "ENC_READ", pattern := 0x00000#20, mask := 0xFC000#20 },
    { mnemonic := "ENC_WADDR", pattern := 0x10000#20, mask := 0xFC000#20 },
    { mnemonic := "ENC_WDATA", pattern := 0x20000#20, mask := 0xFC000#20 },
    { mnemonic := "DEC_ANGLE", pattern := 0x30000#20, mask := 0xF0000#20 },
    { mnemonic := "DEC_GENERIC", pattern := 0x40000#20, mask := 0xF0000#20 },
    { mnemonic := "TRK_INIT", pattern := 0x50000#20, mask := 0xF0000#20 },
    { mnemonic := "TRK_SAMPLE", pattern := 0x60000#20, mask := 0xF0000#20 },
    { mnemonic := "SET_HOME", pattern := 0x70000#20, mask := 0xF0000#20 },
    { mnemonic := "SET_MIRROR", pattern := 0x80000#20, mask := 0xF0000#20 },
    { mnemonic := "GET_ANGLE", pattern := 0x90000#20, mask := 0xF0000#20 },
    { mnemonic := "GET_TOTAL", pattern := 0xA0000#20, mask := 0xF0000#20 },
    { mnemonic := "GET_DELTA", pattern := 0xB0000#20, mask := 0xF0000#20 } ]

/-- A request from a number whose bits are `w`, numbered as the operation table numbers them, of which `nbits` are given
and the rest are 0; none where a bit above the 20 of a request word is set (log entry 11). -/
def tableRequest (nbits w : Nat) : Option Request :=
  let bits := w % 2 ^ nbits
  if bits < 2 ^ 20 then some (requestOfWord (BitVec.ofNat 20 bits)) else none

/-- The operation the decoder reads from such a number. -/
def decodeTableWord (nbits w : Nat) : Option Instr :=
  match tableRequest nbits w with
  | none => none
  | some r =>
    match decode r with
    | .ok i => some i
    | .error _ => none

end Sys2Proof
end

