-- ==== Sys2Proof/Machine/Parametric.lean ====
section
/-! DEFINITION. The operations of the block as functions of the OPEN parameters of R4: `exec` is `execWith` at the defaults
(execWith_params in Sys2Proof/Laws/Ops.lean). Four operations read a parameter; the others are the one meaning for every parameter. -/

namespace Sys2Proof.Machine

/-- The meaning of each operation in a block with the parameters `p` (R4, R58). -/
def execWith (p : Params) (i : Instr) (s : State) : Result :=
  match i with
  | .encRead arg => encReadWith p arg s
  | .encWaddr arg => encWaddrWith p arg s
  | .encWdata arg => encWdataWith p arg s
  | .decAngle word => execDecAngle word s
  | .decGeneric word => execDecGeneric word s
  | .trkInit word => execTrkInit word s
  | .trkSample word => trkSampleWith p word s
  | .setHome => execSetHome s
  | .setMirror m => execSetMirror m s
  | .getAngle => execGetAngle s
  | .getTotal => execGetTotal s
  | .getDelta => execGetDelta s

end Sys2Proof.Machine
end

