-- ==== Sys2Proof/Machine/Port.lean ====
section
/-! DEFINITION. The block at its request port: performing a request, and one step on what stands on the inputs
(R55, R56, R61, R140), for any parameters `p`, which default to those of R4. -/

namespace Sys2Proof.Machine

/-- Perform one presented request: the operation it selects, or a refusal `ReservedOp` where it selects none
(R56, R58, R61, R125). -/
def performRequest (r : Request) (s : State) (p : Params := Config.params) : Result :=
  match decode r with
  | .ok i => execWith p i s
  | .error (.reservedOp _) => turnAway s .reservedOp

/-- One step on the port values `v`: reset first, since no request is accepted while it is asserted (R140); then the
request, if one is presented; otherwise nothing (R56). -/
def portStep (v : PortIn) (s : State) (p : Params := Config.params) : Result :=
  if v.reset then .next (s.applyReset p)
  else if v.reqValid then performRequest v.req s p
  else .next s.idle

/-- The state in which the next step performs the request whose word is `w`, of `nbits` given bits; unchanged where `w` is
no request word. -/
def placeTableWord (s : State) (nbits w : Nat) : State :=
  match tableRequest nbits w with
  | some r => s.present r
  | none => s

end Sys2Proof.Machine
end

