-- ==== Sys2Proof/Machine/Step.lean ====
section
/-! DEFINITION. One step of the machine: it takes what stands on the inputs now and moves them on (R43, R56). -/

namespace Sys2Proof.Machine

/-- One step of the block with the parameters `p`. -/
def stepWith (p : Params) (s : State) : Result := portStep s.portNow s.portAdvance p

/-- One step of the block, at the default parameters of R4. -/
def step (s : State) : Host.Outcome State Fault Refusal := stepWith Config.params s

/-- The block with the parameters `p` as a machine: the model with R4's OPEN parameters as its argument. `core` is it at the
defaults. -/
def machineWith (p : Params) : Host.Core where
  State := State
  Fault := Fault
  Refusal := Refusal
  step := stepWith p
  reset := State.resetWith p

/-- `s` with the request whose word is `w` standing on the port at the next step (log entry 1). -/
def State.withFetchWord (s : State) (nbits w : Nat) : State := placeTableWord s nbits w

end Sys2Proof.Machine
end

