-- ==== Sys2Proof/Machine/Driver.lean ====
section
/-! DEFINITION. The host's pseudo-operations (R66): the sequences of the block's operations and of bus exchanges by which
the environment reads and writes the sensor, samples, filters and boots (R31, R34, R35, R111, R133, R143). They are no
part of the block and their data are no part of State (R22); the words the sensor returns are free inputs (R33). `p` is the
parameters of the system, by default those of R4. -/

namespace Sys2Proof.Machine

/-- The serial bus as the host sees it: the words sent so far, oldest first, and the words the sensor will return, next
first. Nothing constrains the latter (R33; log entry 13). -/
structure Bus where
  sent : List Frame
  rx : List Frame
  deriving DecidableEq, Repr

/-- The block and the bus. -/
structure World where
  block : State
  bus : Bus
  deriving DecidableEq, Repr

/-- How a pseudo-operation ends. -/
inductive Driven (α : Type) where
  /-- It completed with a result. -/
  | done (a : α) (w : World)
  /-- An exchange never completes: the host hangs (R47, R151, U15). -/
  | stalled (w : World)
  /-- The pseudo-operation is given no meaning: FILTER 0 (R111, U11). -/
  | rejected (w : World)
  /-- The block's step gave no result: only a TURN outside a finite TURN_WIDTH (U1). -/
  | stopped (w : World)
  deriving DecidableEq, Repr

/-- Go on after a pseudo-operation that completed. -/
def Driven.andThen {α β : Type} (x : Driven α) (f : α → World → Driven β) : Driven β :=
  match x with
  | .done a w => f a w
  | .stalled w => .stalled w
  | .rejected w => .rejected w
  | .stopped w => .stopped w

/-- One operation of the block, its response as the result. -/
def perform (i : Instr) (w : World) (p : Params := Config.params) : Driven Response :=
  match execWith p i w.block with
  | .next s => .done (s.rsp.getD {}) { w with block := s }
  | .fault _ => .stopped w
  | .refused _ => .stopped w

/-- `Exchange(x)`: sixteen bits out, sixteen bits in, framed by select and deselect (R31); with no word to come the
transport stalls, and the block is as it was (R47, R151). -/
def exchange (x : Frame) (w : World) : Driven Frame :=
  match w.bus.rx with
  | [] => .stalled w
  | r :: rest => .done r { w with bus := { sent := w.bus.sent ++ [x], rx := rest } }

/-- The frame an encoder drove in `val`. -/
def frameOf (r : Response) : Frame := BitVec.ofInt 16 r.val

/-- The address or datum of a pseudo-operation as the `arg` of an encoder. -/
def argOf (x : Operand14) : Frame := x.setWidth 16

/-- The two exchanges of a register read; the word of the second is the answer (R34, R36). -/
def fetchRegister (address : Operand14) (w : World) (p : Params := Config.params) : Driven Frame :=
  (perform (.encRead (argOf address)) w p).andThen fun f w =>
  (exchange (frameOf f) w).andThen fun _ w =>
  exchange p.nopFrame w

/-- READ address: decoded in angle mode exactly for the angle register (R34, R38). -/
def driverRead (address : Operand14) (w : World) (p : Params := Config.params) : Driven Response :=
  (fetchRegister address w p).andThen fun r w =>
  if address = p.addrAngle then perform (.decAngle r) w p else perform (.decGeneric r) w p

/-- WRITE address, data: three exchanges, the confirmation decoded in generic mode (R35; D30). -/
def driverWrite (address data : Operand14) (w : World) (p : Params := Config.params) : Driven Response :=
  (perform (.encWaddr (argOf address)) w p).andThen fun f w =>
  (exchange (frameOf f) w).andThen fun _ w =>
  (perform (.encWdata (argOf data)) w p).andThen fun g w =>
  (exchange (frameOf g) w).andThen fun _ w =>
  (exchange p.nopFrame w).andThen fun r w =>
  perform (.decGeneric r) w p

/-- SAMPLE: one read of the angle register, its word given to TRK_SAMPLE (R66). -/
def driverSample (w : World) (p : Params := Config.params) : Driven Response :=
  (fetchRegister p.addrAngle w p).andThen fun r w => perform (.trkSample r) w p

/-- `n` times SAMPLE, the `val` of each added to `sum` (R111). -/
def sumSamples (n : Nat) (sum : Int) (w : World) (p : Params := Config.params) : Driven Int :=
  match n with
  | 0 => .done sum w
  | n + 1 => (driverSample w p).andThen fun r w => sumSamples n (sum + r.val) w p

/-- `(sum + n div 2) div n` (R111). -/
def roundedMean (sum : Int) (n : Nat) : Int := (sum + (n / 2 : Nat)) / (n : Int)

/-- FILTER n: the rounded mean of n samples; n = 0 is refused (R111; D25). -/
def driverFilter (n : Nat) (w : World) (p : Params := Config.params) : Driven Int :=
  if n = 0 then .rejected w
  else (sumSamples n 0 w p).andThen fun sum w => .done (roundedMean sum n) w

/-- The initial read, repeated until TRK_INIT accepts (R143). Every repeat takes two received words, so `fuel` above their
number is never used up before the bus stalls (log entry 15). -/
def initialRead (fuel : Nat) (w : World) (p : Params := Config.params) : Driven Response :=
  match fuel with
  | 0 => .stalled w
  | fuel + 1 =>
    (fetchRegister p.addrAngle w p).andThen fun r w =>
    (perform (.trkInit r) w p).andThen fun t w =>
    if t.accepted then .done t w else initialRead fuel w p

/-- The two warm-up reads, whose results are thrown away (R143, R150). -/
def warmUp (w : World) (p : Params := Config.params) : Driven Response :=
  (driverRead p.addrAngle w p).andThen fun _ w => driverRead p.addrAngle w p

/-- The optional first step of the boot sequence: SET_MIRROR, only if a direction sense is asked for (R143, R145). -/
def chooseMirror (mirror : Option Bool) (w : World) (p : Params := Config.params) : Driven Response :=
  match mirror with
  | none => .done {} w
  | some m => perform (.setMirror m) w p

/-- CONSTRUCT: SET_MIRROR if wanted, the warm-up, the initial read (R143, R145). -/
def driverConstruct (mirror : Option Bool) (w : World) (p : Params := Config.params) : Driven Response :=
  (chooseMirror mirror w p).andThen fun _ w =>
  (warmUp w p).andThen fun _ w =>
  initialRead (w.bus.rx.length + 1) w p

/-- `REINIT_POLICY`: what the host does after the re-warm-up that follows a reset of the sensor (R133; D26). -/
inductive ReinitPolicy where
  /-- Go on with TRK_SAMPLE, keeping TURN and HOME. -/
  | keepTurns
  /-- Start over with TRK_INIT. -/
  | restart
  deriving DecidableEq, Repr

/-- After a reset of the sensor, which does not touch the block: warm up again, then go on or start over (R133, R141). -/
def driverAfterSensorReset (policy : ReinitPolicy) (w : World) (p : Params := Config.params) : Driven Response :=
  (warmUp w p).andThen fun _ w =>
  match policy with
  | .keepTurns => driverSample w p
  | .restart => initialRead (w.bus.rx.length + 1) w p

end Sys2Proof.Machine
end

