-- ==== Sys2Proof/Safety.lean ====
section
/-! DEFINITION. The terms claims are stated in: what a run is and when it has gone wrong (R154), which operations need
initialisation (R93), the circular step between two angles (R104), and the invariants of the block. -/

namespace Sys2Proof.Machine

/-- Perform operations one after the other, in the order given (R43). -/
def runOps : List Instr → State → Result
  | [], s => .next s
  | i :: is, s =>
    match exec i s with
    | .next t => runOps is t
    | .fault f => .fault f
    | .refused r => .refused r

/-- Perform requests one after the other: a run (R154). -/
def runRequests : List Request → State → Result
  | [], s => .next s
  | r :: rs, s =>
    match performRequest r s with
    | .next t => runRequests rs t
    | .fault f => .fault f
    | .refused e => .refused e

/-- A run has gone wrong when any response in it has `refused` = 1 (R154), or the model gives a step no result. -/
def wentWrong : List Request → State → Bool
  | [], _ => false
  | r :: rs, s =>
    match performRequest r s with
    | .next t => (t.rsp.getD {}).refused || wentWrong rs t
    | .fault _ => true
    | .refused _ => true

/-- The operations that R93 refuses while INITD = 0. -/
def needsInit (i : Instr) : Bool :=
  match i with
  | .encRead _ => false
  | .encWaddr _ => false
  | .encWdata _ => false
  | .decAngle _ => false
  | .decGeneric _ => false
  | .trkInit _ => false
  | .trkSample _ => true
  | .setHome => true
  | .setMirror _ => false
  | .getAngle => true
  | .getTotal => true
  | .getDelta => true

/-- The operations that read an OPEN parameter of R4: the encoders RW_READ or WDATA_DC, TRK_SAMPLE TURN_WIDTH. -/
def usesParams (i : Instr) : Bool :=
  match i with
  | .encRead _ => true
  | .encWaddr _ => true
  | .encWdata _ => true
  | .decAngle _ => false
  | .decGeneric _ => false
  | .trkInit _ => false
  | .trkSample _ => true
  | .setHome => false
  | .setMirror _ => false
  | .getAngle => false
  | .getTotal => false
  | .getDelta => false

/-- TURN is a value a turn counter of `width` bits can hold: -2^(W-1) to 2^(W-1) - 1 (R11). -/
abbrev State.TurnWithin (width : Nat) (s : State) : Prop :=
  -(2 ^ (width - 1) : Int) ≤ s.turn ∧ s.turn ≤ (2 ^ (width - 1) : Int) - 1

/-- The five registers are the same in both states. -/
abbrev KeepsRegisters (s t : State) : Prop :=
  t.last = s.last ∧ t.turn = s.turn ∧ t.home = s.home ∧ t.mirror = s.mirror ∧ t.initd = s.initd

/-- The angle a word carries into the tracker: its angle field, mirrored when `m` (R91, R94). -/
def sampledAngle (word : Frame) (m : Bool) : Angle := mirrorFn (angleField word) m

/-- `d` is a circular step from `p` to `n`: n = (p + d) mod R (R104). -/
abbrev CircularStep (p n : Angle) (d : Int) : Prop := (n.toNat : Int) = ((p.toNat : Int) + d) % 1024

/-- The words, each with the step it makes, keep the host's sampling duty from the angle `p` on: good parity, and a
circular step of -256 <= d < 256 from one accepted angle to the next (R104, R146). -/
def WithinQuadrant (m : Bool) : Angle → List (Frame × Int) → Prop
  | _, [] => True
  | p, (word, d) :: rest =>
    parityOk word = true ∧ -256 ≤ d ∧ d < 256 ∧ CircularStep p (sampledAngle word m) d ∧
      WithinQuadrant m (sampledAngle word m) rest

/-- Before initialisation no turn is counted: TURN is 0 from reset until an accepted TRK_INIT (R24, R91, R93). -/
abbrev State.TurnZeroBeforeInit (s : State) : Prop := s.initd = false → s.turn = 0

/-- What a response that is not refused says of the state it comes with: an accepted sample is in LAST, is what `val` says,
had good parity, and left INITD set; a turn is counted only for an accepted sample and in one direction; a fault request
has one of the two causes of R123 (R57, R91, R94, R123). -/
abbrev State.ResponseSound (s : State) : Prop :=
  ∀ r, s.rsp = some r → r.refused = false →
    (r.accepted = true → s.initd = true ∧ r.val = (s.last.toNat : Int) ∧ r.parityOk = true) ∧
    (r.turnInc = true ∨ r.turnDec = true → r.accepted = true) ∧
    ¬(r.turnInc = true ∧ r.turnDec = true) ∧
    (r.faultReq = true → r.parityOk = false ∨ r.errorFlag = true)

/-- The invariant of the block. -/
abbrev State.Inv (s : State) : Prop := s.TurnZeroBeforeInit ∧ s.ResponseSound

end Sys2Proof.Machine
end

