-- ==== Sys2Proof/Certificates/Slice0/Obligations.lean ====
section
/-! DEFINITION. The statements about the FCT. An equation `exec i s = .next t` with `t` written as an update of `s` is both
the completion statement of the operation and its whole frame: every field not named in the update is unchanged. -/

open Sys2Proof Sys2Proof.Machine

/-! ## Requests: encoding, decoding, the port -/

/-- The words of one request of each operation, written out from the select codes of R58, and a reserved code. -/
def Obligations.TableWordsDecode : Prop :=
  decodeTableWord 24 0x03FF8 = some (.encRead 0x3FF8#16) ∧ decodeTableWord 24 0x13FF8 = some (.encWaddr 0x3FF8#16) ∧
  decodeTableWord 24 0x2001F = some (.encWdata 0x001F#16) ∧ decodeTableWord 24 0x30FF9 = some (.decAngle 0x0FF9#16) ∧
  decodeTableWord 24 0x4007D = some (.decGeneric 0x007D#16) ∧ decodeTableWord 24 0x50FF0 = some (.trkInit 0x0FF0#16) ∧
  decodeTableWord 24 0x60009 = some (.trkSample 0x0009#16) ∧ decodeTableWord 24 0x70000 = some .setHome ∧
  decodeTableWord 24 0x8FFFF = some (.setMirror true) ∧ decodeTableWord 24 0x90000 = some .getAngle ∧
  decodeTableWord 24 0xA0000 = some .getTotal ∧ decodeTableWord 24 0xB0000 = some .getDelta ∧
  decodeTableWord 24 0xC0000 = none

/-- For every operation, well formed or not, and every width that carries the whole request word: the decoder reads the
operation back from the number the encoder writes, and the number is a 20-bit one. -/
def Obligations.DecodeOfEncode : Prop :=
  ∀ (i : Instr) (nbits : Nat), 20 ≤ nbits →
    (encodeWord i).toNat < 2 ^ 20 ∧ decodeTableWord nbits (encodeWord i).toNat = some i

/-- A request word decodes to an operation exactly when it agrees with the operation's encoding on every bit that R63 does
not call ignored: no bit is dropped, no other bit is read, and no word has two meanings. -/
def Obligations.DecodeReadsExactlyCareBits : Prop :=
  ∀ (w : BitVec 20) (i : Instr), decodeWord w = .ok i ↔ w &&& careMask i = encodeWord i

/-- A request word matches a row of the operation table exactly when it decodes to a well-formed operation of that row. -/
def Obligations.TableRowsMatchDecoder : Prop :=
  ∀ (w : BitVec 20) (row : OpRow), row ∈ opTable →
    (w &&& row.mask = row.pattern ↔
      ∃ i, decodeWord w = .ok i ∧ WellFormed i ∧ mnemonicOf i = row.mnemonic)

/-- A step with a request presented and reset not asserted is the operation the request decodes to, performed once the
inputs have moved on by one; and withFetchWord presents a request so that the next step performs it. -/
def Obligations.StepRunsDecodedOperation : Prop :=
  (∀ (s : State) (p : PortIn) (rest : List PortIn) (i : Instr),
    s.inputs = p :: rest → p.reset = false → p.reqValid = true → decode p.req = .ok i →
      step s = exec i { s with inputs := rest }) ∧
  (∀ (s : State) (nbits w : Nat) (i : Instr),
    decodeTableWord nbits w = some i →
      step (s.withFetchWord nbits w) = exec i { s with inputs := s.inputs.tail })

/-- With no request presented and reset not asserted, a step changes no register, drives no response and moves the inputs
on. That no response is driven is the model's reading of R18 (log entry 2). -/
def Obligations.StepWithoutRequestKeepsRegisters : Prop :=
  ∀ s : State, s.portNow.reset = false → s.portNow.reqValid = false →
    step s = .next { s with inputs := s.inputs.tail, rsp := none }

/-- A presented request whose select code is 0xC to 0xF is refused as ReservedOp and changes no register. -/
def Obligations.StepRefusesReservedCodes : Prop :=
  ∀ s : State, s.portNow.reset = false → s.portNow.reqValid = true → 12 ≤ s.portNow.req.reqOp.toNat →
    ∃ t r, step s = .next t ∧ KeepsRegisters s t ∧ t.rsp = some r ∧ r.refusal = some .reservedOp ∧ r.refused = true ∧
      t.inputs = s.inputs.tail

/-- While reset is asserted no request is accepted, whatever is presented, and TURN, MIRROR and INITD take their reset values.
What becomes of LAST and HOME is unspecified and not stated. That no response is driven, and that a reset takes one step,
is the model's form (log entry 7). -/
def Obligations.ResetInputResetsTracker : Prop :=
  ∀ s : State, s.portNow.reset = true →
    ∃ t, step s = .next t ∧ t.turn = 0 ∧ t.mirror = false ∧ t.initd = false ∧ t.rsp = none ∧ t.inputs = s.inputs.tail

/-- The reset state has TURN = 0, MIRROR = 0 and INITD = 0, and no response has been driven. The values it gives LAST and
HOME are the model's own (log entry 6) and are not stated. -/
def Obligations.ResetStateValues : Prop :=
  State.reset.turn = 0 ∧ State.reset.mirror = false ∧ State.reset.initd = false ∧ State.reset.rsp = none

/-- The block is total: every step answers a next state, takes exactly one entry of the inputs, and drives a response
exactly when a request was presented with reset not asserted. The inputs as a list of which a step takes one entry are the
model's form (log entry 1); that a step without a request drives no response is its reading of R18 (log entry 2), and that
one with reset asserted drives none its reading of R140 (log entry 7). -/
def Obligations.EveryStepAnswersNext : Prop :=
  ∀ s : State, ∃ t, step s = .next t ∧ t.inputs = s.inputs.tail ∧
    (t.rsp.isSome = true ↔ s.portNow.reset = false ∧ s.portNow.reqValid = true)

/-- Every step keeps the invariant, from every state that has it: TURN is 0 while INITD is 0, and every response that is not
refused says only what holds of the state it comes with (an accepted sample is in LAST and is `val`, and its parity was
good; a counted turn belongs to an accepted sample and has one direction; a fault request has a cause). That no response of
an earlier operation stands after an idle step or a reset step is the model's form (log entries 2 and 7). -/
def Obligations.StepKeepsInvariant : Prop :=
  ∀ s t : State, s.Inv → step s = .next t → t.Inv

/-- The reset state has the invariant. -/
def Obligations.ResetHasInvariant : Prop := State.reset.Inv

/-- Nothing but the reset input returns INITD to 0. -/
def Obligations.OnlyResetClearsInitd : Prop :=
  ∀ s : State, s.initd = true → s.portNow.reset = false → ∃ t, step s = .next t ∧ t.initd = true

/-- The writers of each register, over all operations: each one changes only in the operations the register table names,
LAST, HOME and INITD only by an accepted word, and TURN in a TRK_SAMPLE only by one. -/
def Obligations.RegistersHaveNamedWriters : Prop :=
  ∀ (i : Instr) (s : State), ∃ t, exec i s = .next t ∧
    (t.last ≠ s.last → ∃ w, parityOk w = true ∧ (i = .trkInit w ∨ i = .trkSample w)) ∧
    (t.turn ≠ s.turn → i = .setHome ∨ ∃ w, parityOk w = true ∧
      (i = .trkInit w ∨ (i = .trkSample w ∧ (t.turn = s.turn + 1 ∨ t.turn = s.turn - 1)))) ∧
    (t.home ≠ s.home → i = .setHome ∨ ∃ w, parityOk w = true ∧ i = .trkInit w) ∧
    (t.mirror ≠ s.mirror → ∃ m, i = .setMirror m) ∧
    (t.initd ≠ s.initd → s.initd = false ∧ t.initd = true ∧ ∃ w, parityOk w = true ∧ i = .trkInit w)

/-- When an operation is refused, and for what: an encoder for an operand wider than 14 bits, the five operations that read
LAST or HOME before initialisation, no other; SET_MIRROR, TRK_INIT, the decoders and the encoders of operands in range
complete at any time. -/
def Obligations.RefusalsAndTheirReasons : Prop :=
  ∀ (i : Instr) (s : State), ∃ t r, exec i s = .next t ∧ t.rsp = some r ∧
    r.refusal = (if ¬WellFormed i then some .operandRange
      else if needsInit i = true ∧ s.initd = false then some .notInitialised else none)

/-- Every operation completes whole or changes no register: a refused one and a sample discarded for parity change none. -/
def Obligations.RefusedOrDiscardedChangesNothing : Prop :=
  ∀ (i : Instr) (s : State), ∃ t r, exec i s = .next t ∧ t.rsp = some r ∧
    (r.refused = true ∨ (∃ w, parityOk w = false ∧ (i = .trkInit w ∨ i = .trkSample w)) → KeepsRegisters s t)

/-- `fault_req`, over all operations that are not refused: driven 1 exactly by a TRK_INIT or TRK_SAMPLE whose word has bad
parity or the error flag set. -/
def Obligations.FaultRequestRule : Prop :=
  ∀ (i : Instr) (s : State), ∃ t r, exec i s = .next t ∧ t.rsp = some r ∧
    (r.refused = false →
      (r.faultReq = true ↔ ∃ w, (i = .trkInit w ∨ i = .trkSample w) ∧ (popcount w % 2 = 1 ∨ w.getLsbD 1 = true)))

/-- Only GET_DELTA reads HOME: in two states that differ in HOME alone, every other operation drives the same response and
leaves the same LAST, TURN, MIRROR and INITD. -/
def Obligations.OnlyGetDeltaReadsHome : Prop :=
  ∀ (i : Instr) (s : State) (h : Angle), i ≠ .getDelta →
    ∃ t u, exec i s = .next t ∧ exec i { s with home := h } = .next u ∧ u.rsp = t.rsp ∧
      u.last = t.last ∧ u.turn = t.turn ∧ u.mirror = t.mirror ∧ u.initd = t.initd

/-- A run of any requests, refused ones among them, completes; and one of requests that all decode to well-formed operations,
from a state with INITD = 1, does not go wrong. -/
def Obligations.RunsCompleteAndGoRight : Prop :=
  ∀ (rs : List Request) (s : State),
    (∃ t, runRequests rs s = .next t) ∧
    (s.initd = true → (∀ r ∈ rs, ∃ i, decode r = .ok i ∧ WellFormed i) → wentWrong rs s = false)

/-! ## The codec -/

/-- The parity functions as R70 defines them, in terms of the number of one bits: PAR15, PARITY_OK, SET_PAR on a body with
bit 0 clear, and the parity fault of the glossary; and where they are used: every encoder drives SET_PAR of a body with bit 0
clear, and both decoders report PARITY_OK of their word. -/
def Obligations.ParityFunctions : Prop :=
  (∀ w : Frame, par15 w = true ↔ popcount (w.extractLsb' 1 15) % 2 = 1) ∧
  (∀ w : Frame, parityOk w = true ↔ popcount w % 2 = 0) ∧
  (∀ w : Frame, w.getLsbD 0 ≠ par15 w ↔ parityOk w = false) ∧
  (∀ b : Frame, b.getLsbD 0 = false →
    (setPar b).getLsbD 0 = par15 b ∧ ∀ k, 0 < k → (setPar b).getLsbD k = b.getLsbD k) ∧
  (∀ (s : State) (arg : Frame) (i : Instr), WellFormed i → i = .encRead arg ∨ i = .encWaddr arg ∨ i = .encWdata arg →
    ∃ b : Frame, b.getLsbD 0 = false ∧
      exec i s = .next { s with rsp := some { val := ((setPar b).toNat : Int) } }) ∧
  (∀ (s : State) (w : Frame) (i : Instr), i = .decAngle w ∨ i = .decGeneric w →
    ∃ t r, exec i s = .next t ∧ t.rsp = some r ∧ r.parityOk = parityOk w)

/-- Corruption of a word in the bit positions of `d`: an odd number of changed bits turns the verdict, an even number leaves
it; so one changed bit is always detected in a word of good parity and two are always missed. -/
def Obligations.ParityDetectsOddCorruption : Prop :=
  (∀ w d : Frame, popcount d % 2 = 1 → parityOk (w ^^^ d) = !parityOk w) ∧
  (∀ w d : Frame, popcount d % 2 = 0 → parityOk (w ^^^ d) = parityOk w) ∧
  (∀ (w : Frame) (j : Nat), j < 16 → parityOk w = true → parityOk (w ^^^ BitVec.twoPow 16 j) = false) ∧
  (∀ (w : Frame) (j k : Nat), j < 16 → k < 16 → j ≠ k → parityOk w = true →
    parityOk (w ^^^ BitVec.twoPow 16 j ^^^ BitVec.twoPow 16 k) = true)

/-- ENC_READ of a 14-bit address completes and drives, in `val`, the one frame with bit 15 set, the address in bits 14:1 and
an even number of ones; every other field of the response is 0 and nothing else changes. The polarity of the R/W bit is the
spec's decision D6 (log entry 9). -/
def Obligations.EncReadDrivesReadCommand : Prop :=
  ∀ (s : State) (arg : Frame), arg.extractLsb' 14 2 = 0#2 →
    ∃ f : Frame, exec (.encRead arg) s = .next { s with rsp := some { val := (f.toNat : Int) } } ∧
      f.getLsbD 15 = true ∧ f.extractLsb' 1 14 = arg.extractLsb' 0 14 ∧ popcount f % 2 = 0

/-- ENC_WADDR of a 14-bit address completes and drives the one frame with bit 15 clear, the address in bits 14:1 and an even
number of ones; nothing else changes. The polarity of the R/W bit is the spec's decision D6 (log entry 9). -/
def Obligations.EncWaddrDrivesWriteCommand : Prop :=
  ∀ (s : State) (arg : Frame), arg.extractLsb' 14 2 = 0#2 →
    ∃ f : Frame, exec (.encWaddr arg) s = .next { s with rsp := some { val := (f.toNat : Int) } } ∧
      f.getLsbD 15 = false ∧ f.extractLsb' 1 14 = arg.extractLsb' 0 14 ∧ popcount f % 2 = 0

/-- ENC_WDATA of a 14-bit datum completes and drives the one frame with the datum in bits 15:2, bit 1 clear and an even
number of ones; nothing else changes. The value of bit 1 is the spec's decision D7 (log entry 9). -/
def Obligations.EncWdataDrivesDataFrame : Prop :=
  ∀ (s : State) (arg : Frame), arg.extractLsb' 14 2 = 0#2 →
    ∃ f : Frame, exec (.encWdata arg) s = .next { s with rsp := some { val := (f.toNat : Int) } } ∧
      f.extractLsb' 2 14 = arg.extractLsb' 0 14 ∧ f.getLsbD 1 = false ∧ popcount f % 2 = 0

/-- Each encoder refuses an operand whose bits 15:14 are not both 0, as OperandRange, and changes no register. -/
def Obligations.EncodersRefuseWideOperands : Prop :=
  ∀ (s : State) (arg : Frame) (i : Instr), arg.extractLsb' 14 2 ≠ 0#2 →
    i = .encRead arg ∨ i = .encWaddr arg ∨ i = .encWdata arg →
    ∃ t r, exec i s = .next t ∧ KeepsRegisters s t ∧ t.inputs = s.inputs ∧ t.rsp = some r ∧ r.refused = true ∧
      r.refusal = some .operandRange

/-- The two command frames for one address differ in bit 15 and in the parity bit and nowhere else. -/
def Obligations.CommandFramesDifferInTwoBits : Prop :=
  ∀ (s : State) (arg : Frame), arg.extractLsb' 14 2 = 0#2 →
    ∃ f g : Frame, exec (.encRead arg) s = .next { s with rsp := some { val := (f.toNat : Int) } } ∧
      exec (.encWaddr arg) s = .next { s with rsp := some { val := (g.toNat : Int) } } ∧ g ^^^ f = 0x8001#16

/-- Which frames each encoder can build: the words of even parity with bit 15 set, with bit 15 clear, and with bit 1 clear. -/
def Obligations.EncoderImages : Prop :=
  ∀ (s : State) (f : Frame),
    ((∃ arg : Frame, WellFormed (.encRead arg) ∧
        exec (.encRead arg) s = .next { s with rsp := some { val := (f.toNat : Int) } }) ↔
      f.getLsbD 15 = true ∧ popcount f % 2 = 0) ∧
    ((∃ arg : Frame, WellFormed (.encWaddr arg) ∧
        exec (.encWaddr arg) s = .next { s with rsp := some { val := (f.toNat : Int) } }) ↔
      f.getLsbD 15 = false ∧ popcount f % 2 = 0) ∧
    ((∃ arg : Frame, WellFormed (.encWdata arg) ∧
        exec (.encWdata arg) s = .next { s with rsp := some { val := (f.toNat : Int) } }) ↔
      f.getLsbD 1 = false ∧ popcount f % 2 = 0)

/-- Whatever value the R/W bit and the don't-care slot are given, the frame has even parity (the parameters of D6 and D7). -/
def Obligations.FrameParityHoldsForEitherPolarity : Prop :=
  ∀ (rw dc : BitVec 1) (x : Operand14),
    popcount (setPar (cmdBody rw x)) % 2 = 0 ∧ popcount (setPar (wdataBody dc x)) % 2 = 0

/-- DEC_ANGLE completes on every word and drives its four fields, the payload whether or not parity checks; `fault_req` is
0, and nothing but the response changes. The place of the alarm bits is the spec's decision D8. -/
def Obligations.DecAngleDrivesFields : Prop :=
  ∀ (s : State) (w : Frame),
    exec (.decAngle w) s = .next { s with rsp := some {
      val := ((w.toNat / 4 % 1024 : Nat) : Int)
      parityOk := decide (popcount w % 2 = 0)
      errorFlag := decide (w.toNat / 2 % 2 = 1)
      alarm := BitVec.ofNat 2 (w.toNat / 4096) } }

/-- DEC_GENERIC completes on every word and drives its three fields; `alarm` and `fault_req` are 0, and nothing but the
response changes. That bits 15:14 are no part of the payload is the spec's decision D9. -/
def Obligations.DecGenericDrivesFields : Prop :=
  ∀ (s : State) (w : Frame),
    exec (.decGeneric w) s = .next { s with rsp := some {
      val := ((w.toNat / 4 % 4096 : Nat) : Int)
      parityOk := decide (popcount w % 2 = 0)
      errorFlag := decide (w.toNat / 2 % 2 = 1) } }

/-- The generic payload is the angle payload with the two alarm bits on top, and the two modes give the same verdicts. -/
def Obligations.GenericPayloadIsAlarmOverAngle : Prop :=
  ∀ (s : State) (w : Frame), ∃ t u a g, exec (.decAngle w) s = .next t ∧ exec (.decGeneric w) s = .next u ∧
    t.rsp = some a ∧ u.rsp = some g ∧ g.val = (a.alarm.toNat : Int) * 1024 + a.val ∧
    g.parityOk = a.parityOk ∧ g.errorFlag = a.errorFlag

/-- The round trip through ENC_WDATA: either decoder reads the datum back, cut to its payload width, with good parity and no
error flag, and the angle decoder shows the next two bits as alarm. -/
def Obligations.WriteDataRoundTrip : Prop :=
  ∀ (s : State) (arg : Frame), arg.toNat < 16384 →
    ∃ f : Frame, exec (.encWdata arg) s = .next { s with rsp := some { val := (f.toNat : Int) } } ∧
      exec (.decGeneric f) s = .next { s with rsp := some {
        val := ((arg.toNat % 4096 : Nat) : Int), parityOk := true, errorFlag := false } } ∧
      exec (.decAngle f) s = .next { s with rsp := some {
        val := ((arg.toNat % 1024 : Nat) : Int), parityOk := true, errorFlag := false
        alarm := BitVec.ofNat 2 (arg.toNat / 1024) } }

/-- A codec operation with its operand in range gives the same response in every state, and changes no register. -/
def Obligations.CodecIsStateless : Prop :=
  ∀ (i : Instr) (arg : Frame), WellFormed i →
    i = .encRead arg ∨ i = .encWaddr arg ∨ i = .encWdata arg ∨ i = .decAngle arg ∨ i = .decGeneric arg →
    ∃ r : Response, ∀ s : State, exec i s = .next { s with rsp := some r }

/-! ## The tracker -/

/-- MIRROR_FN and WRAP as R90 defines them: the mirrored angle is 1023 - a and the bitwise NOT of the ten bits, mirroring
twice gives the angle back and every angle is some angle's mirror, and WRAP by its two conditions. -/
def Obligations.MirrorAndWrapFunctions : Prop :=
  (∀ a : Angle, mirrorFn a false = a ∧ (mirrorFn a true).toNat = 1023 - a.toNat ∧ mirrorFn a true = ~~~a) ∧
  (∀ a : Angle, mirrorFn (mirrorFn a true) true = a) ∧
  (∀ b : Angle, ∃ a : Angle, mirrorFn a true = b) ∧
  (∀ p n : Angle, (wrap p n = 1 ↔ 768 < p.toNat ∧ n.toNat ≤ 256) ∧
    (wrap p n = -1 ↔ ¬(768 < p.toNat ∧ n.toNat ≤ 256) ∧ p.toNat < 256 ∧ 768 ≤ n.toNat) ∧
    (wrap p n = 1 ∨ wrap p n = -1 ∨ wrap p n = 0))

/-- TRK_INIT completes on every word. With good parity LAST and HOME take its mirrored angle, TURN becomes 0 and INITD 1, and
the response reports the acceptance; with bad parity nothing but the response changes and `val` is 0. What a bad word does,
and that TURN starts at 0, is the spec's decision D16. -/
def Obligations.TrkInitEstablishesTracker : Prop :=
  ∀ (s : State) (w : Frame),
    (popcount w % 2 = 0 → ∃ a : Angle,
      a.toNat = (if s.mirror then 1023 - w.toNat / 4 % 1024 else w.toNat / 4 % 1024) ∧
      exec (.trkInit w) s = .next { s with
        last := a, home := a, turn := 0, initd := true
        rsp := some {
          val := (a.toNat : Int), parityOk := true, errorFlag := w.getLsbD 1
          alarm := BitVec.ofNat 2 (w.toNat / 4096), faultReq := w.getLsbD 1, accepted := true } }) ∧
    (popcount w % 2 = 1 →
      exec (.trkInit w) s = .next { s with
        rsp := some {
          parityOk := false, errorFlag := w.getLsbD 1
          alarm := BitVec.ofNat 2 (w.toNat / 4096), faultReq := true } })

/-- TRK_SAMPLE: refused while INITD is 0; with good parity LAST takes the mirrored angle and TURN steps by WRAP of the old
LAST and the new angle; with bad parity nothing but the response changes and `val` is LAST. WRAP of an angle and itself is 0,
so a sample equal to LAST changes no register. Select code 0x6 with the word as `arg` is this operation.
Every clause is R94's own text; behind its refusal, its fault request and the place of its alarm bits stand the spec's
decisions D15, D17 and D8. -/
def Obligations.TrkSampleTakesSample : Prop :=
  ∀ (s : State) (w : Frame),
    performRequest { reqOp := 0x6#4, arg := w } s = exec (.trkSample w) s ∧
    (s.initd = false → ∃ t r, exec (.trkSample w) s = .next t ∧ KeepsRegisters s t ∧ t.rsp = some r ∧
      r.refused = true ∧ r.refusal = some .notInitialised) ∧
    (s.initd = true → popcount w % 2 = 0 → ∃ a : Angle,
      a.toNat = (if s.mirror then 1023 - w.toNat / 4 % 1024 else w.toNat / 4 % 1024) ∧
      exec (.trkSample w) s = .next { s with
        last := a, turn := s.turn + wrap s.last a
        rsp := some {
          val := (a.toNat : Int), parityOk := true, errorFlag := w.getLsbD 1
          alarm := BitVec.ofNat 2 (w.toNat / 4096), faultReq := w.getLsbD 1, accepted := true
          turnInc := decide (wrap s.last a = 1), turnDec := decide (wrap s.last a = -1) } }) ∧
    (s.initd = true → popcount w % 2 = 1 →
      exec (.trkSample w) s = .next { s with
        rsp := some {
          val := (s.last.toNat : Int), parityOk := false, errorFlag := w.getLsbD 1
          alarm := BitVec.ofNat 2 (w.toNat / 4096), faultReq := true } }) ∧
    (∀ x : Angle, wrap x x = 0)

/-- The wrap rule, for an accepted sample: TURN goes up by one from 769 to 1023 into 0 to 256, down by one from 0 to 255 into
768 to 1023, and stays otherwise; of all pairs of angles 65535 count up and 65536 count down. -/
def Obligations.WrapRule : Prop :=
  (∀ (s : State) (w : Frame), s.initd = true → parityOk w = true →
    ∃ t, exec (.trkSample w) s = .next t ∧ t.last = sampledAngle w s.mirror ∧
      t.turn = s.turn +
        (if 769 ≤ s.last.toNat ∧ t.last.toNat ≤ 256 then 1
         else if s.last.toNat ≤ 255 ∧ 768 ≤ t.last.toNat then -1 else 0)) ∧
  (Finset.univ.filter fun x : Fin 1024 × Fin 1024 => wrap (BitVec.ofFin x.1) (BitVec.ofFin x.2) = 1).card = 65535 ∧
  (Finset.univ.filter fun x : Fin 1024 × Fin 1024 => wrap (BitVec.ofFin x.1) (BitVec.ofFin x.2) = -1).card = 65536

/-- Words of bad parity, any number in a row between two words of good parity, leave no trace: the state after them is the
state they met but for the response, and the state after the next accepted word is as if they had never arrived. -/
def Obligations.ParityMasksCorruptSamples : Prop :=
  ∀ (s : State) (bad : List Frame) (v : Frame), s.initd = true → (∀ w ∈ bad, parityOk w = false) → parityOk v = true →
    (∃ t, runOps (bad.map .trkSample) s = .next t ∧ KeepsRegisters s t) ∧
    (∃ t, runOps (bad.map .trkSample ++ [.trkSample v]) s = .next t ∧ exec (.trkSample v) s = .next t)

/-- Only parity decides whether a sample is taken, and fault reporting is driven by the error flag and the parity and by
nothing else; a word of good parity with the error flag set is accepted and tracked, and `fault_req` is raised. -/
def Obligations.ErrorFlagDoesNotGateAcceptance : Prop :=
  (∀ (s : State) (w : Frame), s.initd = true → parityOk w = true → w.getLsbD 1 = true →
    ∃ t r, exec (.trkSample w) s = .next t ∧ t.rsp = some r ∧ r.accepted = true ∧ r.faultReq = true ∧
      t.last = sampledAngle w s.mirror ∧ t.turn = s.turn + wrap s.last t.last) ∧
  (∀ (s : State) (w : Frame), s.initd = true → ∃ t r, exec (.trkSample w) s = .next t ∧ t.rsp = some r ∧
    (r.accepted = true ↔ parityOk w = true) ∧ (r.faultReq = true ↔ parityOk w = false ∨ w.getLsbD 1 = true))

/-- Of a word of good parity the tracker reads the angle field and nothing else: two such words with the same angle field have
the same effect on every register, whatever their error flags, alarm bits and bits 15:14. That the alarm bits have no effect
is the spec's decision D33, that bits 15:14 carry nothing its decision D9. -/
def Obligations.TrackerReadsOnlyAngleField : Prop :=
  ∀ (s : State) (w v : Frame), s.initd = true → parityOk w = true → parityOk v = true → angleField w = angleField v →
    (∃ t u, exec (.trkSample w) s = .next t ∧ exec (.trkSample v) s = .next u ∧ KeepsRegisters t u) ∧
    (∃ t u, exec (.trkInit w) s = .next t ∧ exec (.trkInit v) s = .next u ∧ KeepsRegisters t u)

/-- Across one TRK_SAMPLE, TURN changes by -1, 0 or +1, and the response says which. -/
def Obligations.TurnChangesByAtMostOne : Prop :=
  ∀ (s : State) (w : Frame), ∃ t r, exec (.trkSample w) s = .next t ∧ t.rsp = some r ∧
    (r.refused = false →
      (t.turn = s.turn + 1 ∧ r.turnInc = true ∧ r.turnDec = false) ∨
      (t.turn = s.turn - 1 ∧ r.turnInc = false ∧ r.turnDec = true) ∨
      (t.turn = s.turn ∧ r.turnInc = false ∧ r.turnDec = false)) ∧
    (r.refused = true → t.turn = s.turn)

/-- SET_HOME: refused while INITD is 0; otherwise TURN becomes 0 and HOME takes LAST, all response fields are 0 and nothing
else changes. That HOME takes LAST and not 0 is the spec's decision D19. -/
def Obligations.SetHomeAnchorsHere : Prop :=
  ∀ s : State,
    (s.initd = true → exec .setHome s = .next { s with turn := 0, home := s.last, rsp := some {} }) ∧
    (s.initd = false → ∃ t r, exec .setHome s = .next t ∧ KeepsRegisters s t ∧ t.rsp = some r ∧
      r.refusal = some .notInitialised)

/-- SET_MIRROR, from every request with its select code: MIRROR takes `arg[0]`, the other bits of `arg` are ignored, all
response fields are 0 and nothing else changes. The operation is the spec's decision D21. -/
def Obligations.SetMirrorWritesMirrorOnly : Prop :=
  ∀ (s : State) (arg : Frame),
    performRequest { reqOp := 0x8#4, arg := arg } s = exec (.setMirror (arg.getLsbD 0)) s ∧
    exec (.setMirror (arg.getLsbD 0)) s = .next { s with mirror := decide (arg.toNat % 2 = 1), rsp := some {} }

/-- GET_ANGLE: `val` is LAST, from 0 to 1023; refused while INITD is 0; no register changes. Select code 0x9 is this operation
whatever `arg` is, and after an accepted sample the value is the word's angle, mirrored where MIRROR was 1. -/
def Obligations.GetAngleReadsLast : Prop :=
  ∀ s : State,
    (∀ arg : Frame, performRequest { reqOp := 0x9#4, arg := arg } s = exec .getAngle s) ∧
    (s.initd = true → exec .getAngle s = .next { s with rsp := some { val := (s.last.toNat : Int) } } ∧
      s.last.toNat ≤ 1023) ∧
    (∀ w : Frame, s.initd = true → parityOk w = true → ∃ t, exec (.trkSample w) s = .next t ∧
      exec .getAngle t = .next { t with rsp := some {
        val := (((if s.mirror then 1023 - w.toNat / 4 % 1024 else w.toNat / 4 % 1024 : Nat)) : Int) } }) ∧
    (s.initd = false → ∃ t r, exec .getAngle s = .next t ∧ KeepsRegisters s t ∧ t.rsp = some r ∧
      r.refused = true ∧ r.refusal = some .notInitialised)

/-- GET_TOTAL: `val` is TURN * 1024 + LAST, from which TURN and LAST can be read back; refused while INITD is 0; no register
changes. Select code 0xA is this operation whatever `arg` is. -/
def Obligations.GetTotalReadsContinuousAngle : Prop :=
  ∀ s : State,
    (∀ arg : Frame, performRequest { reqOp := 0xA#4, arg := arg } s = exec .getTotal s) ∧
    (s.initd = true → ∃ v : Int, exec .getTotal s = .next { s with rsp := some { val := v } } ∧
      v = s.turn * 1024 + (s.last.toNat : Int) ∧ s.turn = v / 1024 ∧ (s.last.toNat : Int) = v % 1024) ∧
    (s.initd = false → ∃ t r, exec .getTotal s = .next t ∧ KeepsRegisters s t ∧ t.rsp = some r ∧
      r.refused = true ∧ r.refusal = some .notInitialised)

/-- GET_DELTA: `val` is TURN * 1024 + LAST - HOME; refused while INITD is 0; no register changes. The formula is the spec's
decision D20. -/
def Obligations.GetDeltaReadsAngleFromHome : Prop :=
  ∀ s : State,
    (s.initd = true → exec .getDelta s = .next { s with
      rsp := some { val := s.turn * 1024 + (s.last.toNat : Int) - (s.home.toNat : Int) } }) ∧
    (s.initd = false → ∃ t r, exec .getDelta s = .next t ∧ KeepsRegisters s t ∧ t.rsp = some r ∧
      r.refused = true ∧ r.refusal = some .notInitialised)

/-- Immediately after SET_HOME, and immediately after an accepted TRK_INIT, GET_DELTA gives 0 and GET_TOTAL gives LAST. -/
def Obligations.HomeGivesZeroDelta : Prop :=
  ∀ (s t : State) (i : Instr), i = .setHome ∧ s.initd = true ∨ (∃ w, i = .trkInit w ∧ parityOk w = true) →
    exec i s = .next t →
    exec .getDelta t = .next { t with rsp := some { val := 0 } } ∧
    exec .getTotal t = .next { t with rsp := some { val := (t.last.toNat : Int) } }

/-- Continuity: an accepted sample a circular step d away, -256 <= d <= 256, moves the total by exactly d, except from 768 by
+256, where the crossing is missed and the total moves by -768. -/
def Obligations.AcceptedStepMovesTotalByStep : Prop :=
  ∀ (s : State) (w : Frame) (d : Int), s.initd = true → parityOk w = true → -256 ≤ d → d ≤ 256 →
    CircularStep s.last (sampledAngle w s.mirror) d →
    ∃ t, exec (.trkSample w) s = .next t ∧
      (¬(s.last.toNat = 768 ∧ d = 256) → t.total = s.total + d) ∧
      (s.last.toNat = 768 ∧ d = 256 → t.total = s.total - 768)

/-- Revolution counting over any sequence of samples that keeps the sampling duty: the run completes, the total at its end is
the total at its start plus the sum of the steps, and TURN is that total's whole revolutions. -/
def Obligations.TotalIsSumOfSteps : Prop :=
  ∀ (steps : List (Frame × Int)) (s : State), s.initd = true → WithinQuadrant s.mirror s.last steps →
    ∃ t, runOps (steps.map fun x => .trkSample x.1) s = .next t ∧
      t.total = s.total + (steps.map Prod.snd).sum ∧
      t.turn = (s.total + (steps.map Prod.snd).sum) / 1024 ∧
      t.home = s.home ∧ t.mirror = s.mirror ∧ t.initd = true

/-- Mirroring reverses the direction: a raw step of +d is a tracked step of -d. -/
def Obligations.MirrorReversesDirection : Prop :=
  ∀ (x y : Angle) (d : Int), CircularStep x y d → CircularStep (mirrorFn x true) (mirrorFn y true) (-d)

/-- With a turn counter of W bits, a sample of good parity that leaves TURN in its range has the effect it has with the
unbounded counter, and one that would leave the range is refused by the model by name (U1; log entry 8). -/
def Obligations.FiniteTurnWidthRefusesOverflow : Prop :=
  ∀ (width : Nat) (s : State) (w : Frame), 1 ≤ width → s.initd = true → parityOk w = true →
    ∃ t, exec (.trkSample w) s = .next t ∧
      (-(2 ^ (width - 1) : Int) ≤ t.turn ∧ t.turn ≤ (2 ^ (width - 1) : Int) - 1 → sampleAt (some width) w s = .next t) ∧
      (¬(-(2 ^ (width - 1) : Int) ≤ t.turn ∧ t.turn ≤ (2 ^ (width - 1) : Int) - 1) →
        sampleAt (some width) w s = .refused .turnOutOfRange)

/-! ## The host's pseudo-operations -/

/-- READ: two exchanges, the read command and then the no-op frame; the first word received is thrown away and the second is
decoded, in angle mode exactly when the address is that of the angle register; the block's registers are untouched. -/
def Obligations.ReadIsTwoExchanges : Prop :=
  ∀ (w : World) (address : Operand14) (echo r : Frame) (rest : List Frame), w.bus.rx = echo :: r :: rest →
    ∃ f x v, exec (.encRead (address.setWidth 16)) w.block =
        .next { w.block with rsp := some { val := ((f : Frame).toNat : Int) } } ∧
      driverRead address w = .done x v ∧
      v.bus.sent = w.bus.sent ++ [f, Config.nopFrame] ∧ v.bus.rx = rest ∧
      KeepsRegisters w.block v.block ∧
      (address = Config.addrAngle → exec (.decAngle r) w.block = .next { w.block with rsp := some x }) ∧
      (address ≠ Config.addrAngle → exec (.decGeneric r) w.block = .next { w.block with rsp := some x })

/-- WRITE: three exchanges, the write-address command, the write-data frame and the no-op frame; the third word received is
decoded in generic mode (the spec's decision D30); the block's registers are untouched. -/
def Obligations.WriteIsThreeExchanges : Prop :=
  ∀ (w : World) (address data : Operand14) (e₁ e₂ r : Frame) (rest : List Frame), w.bus.rx = e₁ :: e₂ :: r :: rest →
    ∃ f g x v,
      exec (.encWaddr (address.setWidth 16)) w.block =
        .next { w.block with rsp := some { val := ((f : Frame).toNat : Int) } } ∧
      exec (.encWdata (data.setWidth 16)) w.block =
        .next { w.block with rsp := some { val := ((g : Frame).toNat : Int) } } ∧
      driverWrite address data w = .done x v ∧
      v.bus.sent = w.bus.sent ++ [f, g, Config.nopFrame] ∧ v.bus.rx = rest ∧
      KeepsRegisters w.block v.block ∧ exec (.decGeneric r) w.block = .next { w.block with rsp := some x }

/-- FILTER n of a constant stream of words of good parity gives their angle, for every n of at least 1 and whatever the n
immediate echoes are, each its own word; FILTER 0 is refused (the spec's decision D25). -/
def Obligations.FilterOfConstantStream : Prop :=
  (∀ (n : Nat) (w : World) (echoes : List Frame) (r : Frame) (rest : List Frame),
    1 ≤ n → echoes.length = n → w.block.initd = true → parityOk r = true →
    w.bus.rx = (echoes.flatMap fun e => [e, r]) ++ rest →
    ∃ v, driverFilter n w = .done ((sampledAngle r w.block.mirror).toNat : Int) v ∧ v.bus.rx = rest) ∧
  (∀ w : World, driverFilter 0 w = .rejected w)

/-- CONSTRUCT, with SET_MIRROR or without, when the initial read has bad parity any number of times and then good parity: two
reads of the angle register whose words do not reach the tracker, then as many reads of it as the initial read takes, every
command sent being the frame ENC_READ drives for ADDR_ANGLE. After it LAST and HOME are the angle of the one good word in
the direction sense in force, TURN is 0, INITD is 1 and GET_DELTA gives 0. That the host repeats the initial read, and for
as long as words come, is the spec's decision D16 with no bound (U19; log entry 15). -/
def Obligations.ConstructEstablishesTracker : Prop :=
  ∀ (w : World) (m : Option Bool) (u₁ u₂ u₃ u₄ : Frame) (bad : List (Frame × Frame)) (echo r : Frame) (rest : List Frame),
    w.bus.rx = u₁ :: u₂ :: u₃ :: u₄ :: ((bad.flatMap fun x => [x.1, x.2]) ++ echo :: r :: rest) →
    (∀ x ∈ bad, parityOk x.2 = false) → parityOk r = true →
    ∃ x v, ∃ f : Frame,
      exec (.encRead (Config.addrAngle.setWidth 16)) w.block =
        .next { w.block with rsp := some { val := (f.toNat : Int) } } ∧
      driverConstruct m w = .done x v ∧ x.accepted = true ∧ v.bus.rx = rest ∧
      v.bus.sent = w.bus.sent ++ (List.replicate (3 + bad.length) [f, Config.nopFrame]).flatten ∧
      v.block.mirror = m.getD w.block.mirror ∧
      v.block.last = sampledAngle r (m.getD w.block.mirror) ∧ v.block.home = sampledAngle r (m.getD w.block.mirror) ∧
      v.block.turn = 0 ∧ v.block.initd = true ∧
      exec .getDelta v.block = .next { v.block with rsp := some { val := 0 } }

/-- A stalled transport hangs the host and not the block: a READ stalls in whichever of its two exchanges finds no word to
come, a WRITE in whichever of its three, each with the registers of the block as they were. That an exchange with no word
to come is one that stalls, and that its outgoing word is not listed as sent, is the model's form (log entry 13). -/
def Obligations.StalledTransportKeepsBlock : Prop :=
  (∀ (x : Frame) (w : World), w.bus.rx = [] → exchange x w = .stalled w) ∧
  (∀ (address : Operand14) (w : World), w.bus.rx.length < 2 →
    ∃ v, driverRead address w = .stalled v ∧ KeepsRegisters w.block v.block ∧
      v.bus.sent.length = w.bus.sent.length + w.bus.rx.length) ∧
  (∀ (address data : Operand14) (w : World), w.bus.rx.length < 3 →
    ∃ v, driverWrite address data w = .stalled v ∧ KeepsRegisters w.block v.block ∧
      v.bus.sent.length = w.bus.sent.length + w.bus.rx.length)

/-! ## The OPEN parameters -/

/-- The machine is the parametric machine at the defaults of R4: TURN_WIDTH unbounded, RW_READ = 1, WDATA_DC = 0,
MIRROR_RESET = 0 (the spec's decisions D6, D7, D13 and D18; log entries 8 and 9). -/
def Obligations.DefaultParametersGiveTheMachine : Prop :=
  (∀ (i : Instr) (s : State), execWith Config.params i s = exec i s) ∧
  (∀ s : State, stepWith Config.params s = step s) ∧ State.resetWith Config.params = State.reset ∧
  machineWith Config.params = core ∧
  Config.params.turnWidth = none ∧ Config.params.rwRead = 1#1 ∧ Config.params.wdataDc = 0#1 ∧
  Config.params.mirrorReset = false

/-- For every value of the parameters, an encoder whose operand fits in 14 bits completes, writes no register, and drives the
frame of even parity with the operand in its field and the parameter in its bit: RW_READ or its complement in bit 15,
WDATA_DC in bit 1. -/
def Obligations.EncodersFollowTheirParameters : Prop :=
  ∀ (p : Params) (s : State) (arg : Frame), arg.extractLsb' 14 2 = 0#2 →
    (∃ f : Frame, execWith p (.encRead arg) s = .next { s with rsp := some { val := (f.toNat : Int) } } ∧
      f.extractLsb' 15 1 = p.rwRead ∧ f.extractLsb' 1 14 = arg.extractLsb' 0 14 ∧ popcount f % 2 = 0) ∧
    (∃ f : Frame, execWith p (.encWaddr arg) s = .next { s with rsp := some { val := (f.toNat : Int) } } ∧
      f.extractLsb' 15 1 = ~~~p.rwRead ∧ f.extractLsb' 1 14 = arg.extractLsb' 0 14 ∧ popcount f % 2 = 0) ∧
    (∃ f : Frame, execWith p (.encWdata arg) s = .next { s with rsp := some { val := (f.toNat : Int) } } ∧
      f.extractLsb' 1 1 = p.wdataDc ∧ f.extractLsb' 2 14 = arg.extractLsb' 0 14 ∧ popcount f % 2 = 0)

/-- Where the parameters do not reach: the operations but the encoders and TRK_SAMPLE, and a refused encoder, do the same for
all parameters, and TRK_SAMPLE the same for all that agree on TURN_WIDTH; and where MIRROR_RESET does: MIRROR takes it in
every step with reset asserted, and has it in the reset state, where TURN and INITD are 0 for all. That a reset takes one
step is the model's form (log entry 7). -/
def Obligations.ParametersReachOnlyTheirOperations : Prop :=
  (∀ (p q : Params) (i : Instr) (s : State), usesParams i = false ∨ ¬WellFormed i →
    execWith p i s = execWith q i s) ∧
  (∀ (p q : Params) (w : Frame) (s : State), p.turnWidth = q.turnWidth →
    execWith p (.trkSample w) s = execWith q (.trkSample w) s) ∧
  (∀ (p : Params) (s : State), s.portNow.reset = true →
    ∃ t, stepWith p s = .next t ∧ t.mirror = p.mirrorReset ∧ t.turn = 0 ∧ t.initd = false) ∧
  (∀ p : Params, (State.resetWith p).mirror = p.mirrorReset ∧ (State.resetWith p).turn = 0 ∧
    (State.resetWith p).initd = false)

/-- The invariant of a finite turn counter: with TURN_WIDTH = W, a step from a state whose TURN a counter of W bits can hold
answers such a state again, or is refused by the model by name, and that only at an end of the range (U1, R152; log entry
8); the reset state is such a state. With the unbounded TURN_WIDTH every step answers, whatever the other parameters. -/
def Obligations.TurnStaysWithinItsWidth : Prop :=
  (∀ (p : Params) (width : Nat) (s : State), p.turnWidth = some width → 1 ≤ width → s.TurnWithin width →
    (∃ t, stepWith p s = .next t ∧ t.TurnWithin width) ∨
    (stepWith p s = .refused .turnOutOfRange ∧
      (s.turn = -(2 ^ (width - 1) : Int) ∨ s.turn = (2 ^ (width - 1) : Int) - 1))) ∧
  (∀ (p : Params) (width : Nat), 1 ≤ width → (State.resetWith p).TurnWithin width) ∧
  (∀ (p : Params) (s : State), p.turnWidth = none → ∃ t, stepWith p s = .next t)
end

