-- ==== Sys2Proof/Laws/Config.lean ====
section
/-! SUPPORT. The defaults of R4, parameter by parameter, so that no proof unfolds Config.params. -/

namespace Sys2Proof

@[simp] theorem Config.params_turnWidth : Config.params.turnWidth = none := rfl
@[simp] theorem Config.params_rwRead : Config.params.rwRead = 1#1 := rfl
@[simp] theorem Config.params_rwWrite : Config.params.rwWrite = 0#1 := rfl
@[simp] theorem Config.params_wdataDc : Config.params.wdataDc = 0#1 := rfl
@[simp] theorem Config.params_mirrorReset : Config.params.mirrorReset = false := rfl
@[simp] theorem Config.params_addrAngle : Config.params.addrAngle = Config.addrAngle := rfl
@[simp] theorem Config.params_nopFrame : Config.params.nopFrame = Config.nopFrame := rfl

end Sys2Proof
end

