-- ==== Sys2Proof/Laws/Operands.lean ====
section
/-! SUPPORT. Each field of a word as arithmetic on the word's number, each operand test as a bound, and the mirrored angle. -/

namespace Sys2Proof.Machine

theorem angleField_toNat (w : Frame) : (angleField w).toNat = w.toNat / 4 % 1024 := by
  simp [angleField, BitVec.extractLsb'_toNat, Nat.shiftRight_eq_div_pow]

theorem genericField_toNat (w : Frame) : (genericField w).toNat = w.toNat / 4 % 4096 := by
  simp [genericField, BitVec.extractLsb'_toNat, Nat.shiftRight_eq_div_pow]

theorem alarmField_eq_ofNat (w : Frame) : alarmField w = BitVec.ofNat 2 (w.toNat / 4096) := by
  apply BitVec.eq_of_toNat_eq
  simp [alarmField, BitVec.extractLsb'_toNat, Nat.shiftRight_eq_div_pow]

theorem errorBit_eq_decide (w : Frame) : errorBit w = decide (w.toNat / 2 % 2 = 1) := by
  simp [errorBit, BitVec.getLsbD, Nat.testBit, Nat.shiftRight_eq_div_pow, bne, Nat.and_comm 1]
  grind

theorem operand14_toNat (arg : Frame) : (operand14 arg).toNat = arg.toNat % 2 ^ 14 := by
  simp [operand14, BitVec.extractLsb'_toNat]

theorem topBits_eq_zero_iff (arg : Frame) : arg.extractLsb' 14 2 = 0#2 ↔ arg.toNat < 2 ^ 14 := by
  have := arg.isLt
  rw [← BitVec.toNat_inj]
  simp [BitVec.extractLsb'_toNat, Nat.shiftRight_eq_div_pow]
  omega

theorem operandInRange_iff (arg : Frame) : operandInRange arg = true ↔ arg.extractLsb' 14 2 = 0#2 := by
  simp [operandInRange]

@[simp] theorem mirrorFn_false (a : Angle) : mirrorFn a false = a := rfl

theorem mirrorFn_toNat (a : Angle) (m : Bool) : (mirrorFn a m).toNat = if m then 1023 - a.toNat else a.toNat := by
  cases m
  · rfl
  · simp [mirrorFn, Config.resolution]
    omega

end Sys2Proof.Machine
end

