-- ==== Sys2Proof/Laws/Flags.lean ====
section
/-! SUPPORT. Parity as a homomorphism and as the number of ones, the parity bit an encoder sets, and the wrap test in
numbers. -/

namespace Sys2Proof.Machine

theorem xorBelow_xor {n : Nat} (v d : BitVec n) (k : Nat) :
    xorBelow (v ^^^ d) k = (xorBelow v k).xor (xorBelow d k) := by
  induction k with
  | zero => rfl
  | succ k ih => simp [xorBelow, ih]; grind

theorem xorBelow_eq_decide {n : Nat} (v : BitVec n) (k : Nat) : xorBelow v k = decide (onesBelow v k % 2 = 1) := by
  induction k with
  | zero => rfl
  | succ k ih =>
    rw [Bool.eq_iff_iff, decide_eq_true_iff]
    simp only [xorBelow, onesBelow, ih]
    rcases Bool.eq_false_or_eq_true (v.getLsbD k) with h | h
    · simp [h]
      omega
    · simp [h]

/-- `xor_reduce(v)` is `popcount(v) mod 2` (R7). -/
theorem xorReduce_eq_decide {n : Nat} (v : BitVec n) : xorReduce v = decide (popcount v % 2 = 1) :=
  xorBelow_eq_decide v n

theorem xorReduce_xor {n : Nat} (v d : BitVec n) : xorReduce (v ^^^ d) = (xorReduce v).xor (xorReduce d) :=
  xorBelow_xor v d n

/-- Taking bit 0 off a word takes it off the exclusive-or. -/
theorem xorBelow_extract_one {n : Nat} (v : BitVec n) (m k : Nat) (h : k ≤ m) :
    xorBelow v (k + 1) = (v.getLsbD 0).xor (xorBelow (v.extractLsb' 1 m) k) := by
  induction k with
  | zero => simp [xorBelow]
  | succ k ih =>
    rw [xorBelow, ih (by omega)]
    have hk : (v.extractLsb' 1 m).getLsbD k = v.getLsbD (k + 1) := by
      simp [Nat.add_comm 1 k]; omega
    simp [xorBelow, hk]
    grind

theorem xorReduce_eq_low_xor_par15 (w : Frame) : xorReduce w = (w.getLsbD 0).xor (par15 w) :=
  xorBelow_extract_one w 15 15 (by omega)

/-- Setting the parity bit changes no bit but bit 0. -/
theorem setPar_getLsbD (b : Frame) (k : Nat) :
    (setPar b).getLsbD k = (b.getLsbD k || (decide (k = 0) && par15 b)) := by
  cases k <;> simp [setPar]

theorem setPar_extract_upper (b : Frame) : (setPar b).extractLsb' 1 15 = b.extractLsb' 1 15 := by
  apply BitVec.eq_of_getLsbD_eq
  intro k hk
  simp [setPar_getLsbD]

/-- A body with bit 0 clear gets even parity. -/
theorem xorReduce_setPar (b : Frame) (h : b.getLsbD 0 = false) : xorReduce (setPar b) = false := by
  rw [xorReduce_eq_low_xor_par15]
  have hp : par15 (setPar b) = par15 b := by simp only [par15, setPar_extract_upper]
  rw [hp, setPar_getLsbD, h]
  simp

theorem parityOk_eq_decide (w : Frame) : parityOk w = decide (popcount w % 2 = 0) := by
  have := Nat.mod_two_eq_zero_or_one (popcount w)
  rw [parityOk, xorReduce_eq_decide, ← decide_not]
  congr 1
  apply propext
  omega

/-- WRAP in the numbers of this hardware. -/
theorem wrap_eq (p n : Angle) :
    wrap p n = if 768 < p.toNat ∧ n.toNat ≤ 256 then 1 else if p.toNat < 256 ∧ 768 ≤ n.toNat then -1 else 0 := rfl

@[simp] theorem turnFits_none (t : Int) : turnFits none t = true := rfl

theorem turnFits_some (w : Nat) (t : Int) :
    turnFits (some w) t = true ↔ -(2 ^ (w - 1) : Int) ≤ t ∧ t < (2 ^ (w - 1) : Int) := by
  simp [turnFits]

end Sys2Proof.Machine
end

