-- ==== Sys2Proof/Laws/State.lean ====
section
/-! SUPPORT. What each named update of the state does to each field, so that no proof unfolds a record update. -/

namespace Sys2Proof.Machine

@[simp] theorem State.respond_last (s : State) (r : Response) : (s.respond r).last = s.last := rfl
@[simp] theorem State.respond_turn (s : State) (r : Response) : (s.respond r).turn = s.turn := rfl
@[simp] theorem State.respond_home (s : State) (r : Response) : (s.respond r).home = s.home := rfl
@[simp] theorem State.respond_mirror (s : State) (r : Response) : (s.respond r).mirror = s.mirror := rfl
@[simp] theorem State.respond_initd (s : State) (r : Response) : (s.respond r).initd = s.initd := rfl
@[simp] theorem State.respond_inputs (s : State) (r : Response) : (s.respond r).inputs = s.inputs := rfl
@[simp] theorem State.respond_rsp (s : State) (r : Response) : (s.respond r).rsp = some r := rfl
@[simp] theorem State.respond_freeCount (s : State) (r : Response) : (s.respond r).freeCount = s.freeCount := rfl

@[simp] theorem State.refuse_last (s : State) (why : RefuseReason) : (s.refuse why).last = s.last := rfl
@[simp] theorem State.refuse_turn (s : State) (why : RefuseReason) : (s.refuse why).turn = s.turn := rfl
@[simp] theorem State.refuse_home (s : State) (why : RefuseReason) : (s.refuse why).home = s.home := rfl
@[simp] theorem State.refuse_mirror (s : State) (why : RefuseReason) : (s.refuse why).mirror = s.mirror := rfl
@[simp] theorem State.refuse_initd (s : State) (why : RefuseReason) : (s.refuse why).initd = s.initd := rfl
@[simp] theorem State.refuse_inputs (s : State) (why : RefuseReason) : (s.refuse why).inputs = s.inputs := rfl
@[simp] theorem State.refuse_rsp (s : State) (why : RefuseReason) : (s.refuse why).rsp = some (refusedResponse s.freeCount why) := rfl
@[simp] theorem State.refuse_freeCount (s : State) (why : RefuseReason) : (s.refuse why).freeCount = s.freeCount + 1 := rfl

@[simp] theorem State.applyReset_last (s : State) (p : Params) : (s.applyReset p).last = Config.freeLast s.freeCount := rfl
@[simp] theorem State.applyReset_turn (s : State) (p : Params) : (s.applyReset p).turn = 0 := rfl
@[simp] theorem State.applyReset_home (s : State) (p : Params) : (s.applyReset p).home = Config.freeHome s.freeCount := rfl
@[simp] theorem State.applyReset_mirror (s : State) (p : Params) : (s.applyReset p).mirror = p.mirrorReset := rfl
@[simp] theorem State.applyReset_initd (s : State) (p : Params) : (s.applyReset p).initd = false := rfl
@[simp] theorem State.applyReset_inputs (s : State) (p : Params) : (s.applyReset p).inputs = s.inputs := rfl
@[simp] theorem State.applyReset_rsp (s : State) (p : Params) : (s.applyReset p).rsp = none := rfl
@[simp] theorem State.applyReset_freeCount (s : State) (p : Params) : (s.applyReset p).freeCount = s.freeCount + 1 := rfl

@[simp] theorem State.idle_last (s : State) : (s.idle).last = s.last := rfl
@[simp] theorem State.idle_turn (s : State) : (s.idle).turn = s.turn := rfl
@[simp] theorem State.idle_home (s : State) : (s.idle).home = s.home := rfl
@[simp] theorem State.idle_mirror (s : State) : (s.idle).mirror = s.mirror := rfl
@[simp] theorem State.idle_initd (s : State) : (s.idle).initd = s.initd := rfl
@[simp] theorem State.idle_inputs (s : State) : (s.idle).inputs = s.inputs := rfl
@[simp] theorem State.idle_rsp (s : State) : (s.idle).rsp = none := rfl
@[simp] theorem State.idle_freeCount (s : State) : (s.idle).freeCount = s.freeCount := rfl

@[simp] theorem State.portAdvance_last (s : State) : (s.portAdvance).last = s.last := rfl
@[simp] theorem State.portAdvance_turn (s : State) : (s.portAdvance).turn = s.turn := rfl
@[simp] theorem State.portAdvance_home (s : State) : (s.portAdvance).home = s.home := rfl
@[simp] theorem State.portAdvance_mirror (s : State) : (s.portAdvance).mirror = s.mirror := rfl
@[simp] theorem State.portAdvance_initd (s : State) : (s.portAdvance).initd = s.initd := rfl
@[simp] theorem State.portAdvance_inputs (s : State) : (s.portAdvance).inputs = s.inputs.tail := rfl
@[simp] theorem State.portAdvance_rsp (s : State) : (s.portAdvance).rsp = s.rsp := rfl
@[simp] theorem State.portAdvance_freeCount (s : State) : (s.portAdvance).freeCount = s.freeCount := rfl

@[simp] theorem State.present_last (s : State) (q : Request) : (s.present q).last = s.last := rfl
@[simp] theorem State.present_turn (s : State) (q : Request) : (s.present q).turn = s.turn := rfl
@[simp] theorem State.present_home (s : State) (q : Request) : (s.present q).home = s.home := rfl
@[simp] theorem State.present_mirror (s : State) (q : Request) : (s.present q).mirror = s.mirror := rfl
@[simp] theorem State.present_initd (s : State) (q : Request) : (s.present q).initd = s.initd := rfl
@[simp] theorem State.present_inputs (s : State) (q : Request) : (s.present q).inputs = { reset := false, reqValid := true, req := q } :: s.inputs.tail := rfl
@[simp] theorem State.present_rsp (s : State) (q : Request) : (s.present q).rsp = s.rsp := rfl
@[simp] theorem State.present_freeCount (s : State) (q : Request) : (s.present q).freeCount = s.freeCount := rfl

@[simp] theorem refusedResponse_refusal (n : Nat) (why : RefuseReason) : (refusedResponse n why).refusal = some why := rfl

@[simp] theorem refusedResponse_refused (n : Nat) (why : RefuseReason) : (refusedResponse n why).refused = true := rfl

/-- The port of a state to which a request was presented carries that request. -/
@[simp] theorem State.present_portNow (s : State) (q : Request) :
    (s.present q).portNow = { reset := false, reqValid := true, req := q } := rfl

/-- Presenting a request and moving the inputs on leaves what stood behind it. -/
@[simp] theorem State.present_portAdvance (s : State) (q : Request) : (s.present q).portAdvance = s.portAdvance := rfl

end Sys2Proof.Machine
end

