-- ==== Sys2Proof/Laws/Ops.lean ====
section
/-! SUPPORT. One lemma per shared operation that says everything it can do, and what an operation of the block can answer:
the cases from which the whole-machine rules follow. -/

namespace Sys2Proof.Machine

theorem ifInitialised_set (s : State) (k : Result) (h : s.initd = true) : ifInitialised s k = k := by
  simp [ifInitialised, h]

theorem ifInitialised_clear (s : State) (k : Result) (h : s.initd = false) :
    ifInitialised s k = turnAway s .notInitialised := by
  simp [ifInitialised, h]

theorem encodeFrame_inRange (body : Operand14 → Frame) (arg : Frame) (s : State) (h : operandInRange arg = true) :
    encodeFrame body arg s = answer s { val := ((setPar (body (operand14 arg))).toNat : Int) } := by
  simp [encodeFrame, h]

theorem encodeFrame_outOfRange (body : Operand14 → Frame) (arg : Frame) (s : State) (h : operandInRange arg = false) :
    encodeFrame body arg s = turnAway s .operandRange := by
  simp [encodeFrame, h]

theorem operandInRange_eq_wellFormed (arg : Frame) : operandInRange arg = decide (FitsOperand14 arg) := by
  rw [Bool.eq_iff_iff, operandInRange_iff, topBits_eq_zero_iff]
  simp

/-- The state an accepted TRK_INIT leaves. -/
def initialisedBy (word : Frame) (s : State) : State :=
  { s with
    last := mirrorFn (angleField word) s.mirror
    home := mirrorFn (angleField word) s.mirror
    turn := 0
    initd := true
    rsp := some { trackerReport word with
      accepted := true, val := ((mirrorFn (angleField word) s.mirror).toNat : Int) } }

/-- The state an accepted TRK_SAMPLE leaves. -/
def sampledBy (word : Frame) (s : State) : State :=
  { s with
    turn := s.turn + wrap s.last (mirrorFn (angleField word) s.mirror)
    last := mirrorFn (angleField word) s.mirror
    rsp := some { trackerReport word with
      accepted := true
      turnInc := wrap s.last (mirrorFn (angleField word) s.mirror) == 1
      turnDec := wrap s.last (mirrorFn (angleField word) s.mirror) == -1
      val := ((mirrorFn (angleField word) s.mirror).toNat : Int) } }

theorem execTrkInit_accepted (w : Frame) (s : State) (h : parityOk w = true) :
    execTrkInit w s = .next (initialisedBy w s) := by
  simp [execTrkInit, h, initialisedBy]

theorem execTrkInit_discarded (w : Frame) (s : State) (h : parityOk w = false) :
    execTrkInit w s = answer s (trackerReport w) := by
  simp [execTrkInit, h]

/-- Everything TRK_SAMPLE can do, with a turn counter of any width. -/
theorem sampleAt_accepted (width : Option Nat) (w : Frame) (s : State) (hi : s.initd = true) (h : parityOk w = true) :
    sampleAt width w s =
      if turnFits width (sampledBy w s).turn then .next (sampledBy w s) else .refused .turnOutOfRange := by
  simp [sampleAt, ifInitialised_set, hi, h, sampledBy]

theorem sampleAt_discarded (width : Option Nat) (w : Frame) (s : State) (hi : s.initd = true) (h : parityOk w = false) :
    sampleAt width w s = answer s { trackerReport w with val := (s.last.toNat : Int) } := by
  simp [sampleAt, ifInitialised_set, hi, h]

theorem sampleAt_refused (width : Option Nat) (w : Frame) (s : State) (hi : s.initd = false) :
    sampleAt width w s = turnAway s .notInitialised := by
  simp [sampleAt, ifInitialised_clear, hi]

theorem execTrkSample_accepted (w : Frame) (s : State) (hi : s.initd = true) (h : parityOk w = true) :
    execTrkSample w s = .next (sampledBy w s) :=
  sampleAt_accepted none w s hi h

theorem execTrkSample_discarded (w : Frame) (s : State) (hi : s.initd = true) (h : parityOk w = false) :
    execTrkSample w s = answer s { trackerReport w with val := (s.last.toNat : Int) } :=
  sampleAt_discarded none w s hi h

theorem execTrkSample_refused (w : Frame) (s : State) (hi : s.initd = false) :
    execTrkSample w s = turnAway s .notInitialised :=
  sampleAt_refused none w s hi

/-- What an encoder can answer. -/
theorem encodeFrame_cases (body : Operand14 → Frame) (arg : Frame) (s : State) :
    (encodeFrame body arg s = turnAway s .operandRange ∧ ¬FitsOperand14 arg) ∨
    (∃ f : Frame, encodeFrame body arg s = answer s { val := (f.toNat : Int) } ∧ FitsOperand14 arg) := by
  have hw := operandInRange_eq_wellFormed arg
  cases h : operandInRange arg
  · exact .inl ⟨encodeFrame_outOfRange body arg s h, by simpa [h] using hw⟩
  · exact .inr ⟨_, encodeFrame_inRange body arg s h, by simpa [h] using hw⟩

/-- What a gated operation that only reads can answer. -/
theorem ifInitialised_answer_cases (s : State) (r : Response) :
    (ifInitialised s (answer s r) = turnAway s .notInitialised ∧ s.initd = false) ∨
    (ifInitialised s (answer s r) = answer s r ∧ s.initd = true) := by
  cases h : s.initd
  · exact .inl ⟨ifInitialised_clear s _ h, rfl⟩
  · exact .inr ⟨ifInitialised_set s _ h, rfl⟩

/-- A response that no tracker operation drove: accepted, the turn flags and the fault request are 0. -/
abbrev Response.Plain (r : Response) : Prop :=
  r.refusal = none ∧ r.accepted = false ∧ r.turnInc = false ∧ r.turnDec = false ∧ r.faultReq = false

/-- A response to a sample discarded for parity. -/
abbrev Response.Discards (r : Response) : Prop :=
  r.refusal = none ∧ r.accepted = false ∧ r.turnInc = false ∧ r.turnDec = false ∧ r.faultReq = true ∧ r.parityOk = false

/-- The operations that give a word to the tracker. -/
abbrev GivesWord (i : Instr) (w : Frame) : Prop := i = .trkInit w ∨ i = .trkSample w

/-- What `exec i s` can be: the single case analysis from which the whole-machine rules follow. -/
inductive Answers (i : Instr) (s : State) : Prop where
  | wide (h : exec i s = turnAway s .operandRange) (hw : ¬WellFormed i)
  | early (h : exec i s = turnAway s .notInitialised) (hw : WellFormed i) (hn : needsInit i = true) (hi : s.initd = false)
  | plain (r : Response) (h : exec i s = answer s r) (hw : WellFormed i) (hn : needsInit i = true → s.initd = true)
      (hr : r.Plain) (hg : ∀ w, ¬GivesWord i w)
  | discarded (w : Frame) (r : Response) (h : exec i s = answer s r) (hw : WellFormed i)
      (hn : needsInit i = true → s.initd = true) (hg : GivesWord i w) (hp : parityOk w = false) (hr : r.Discards)
  | initialised (w : Frame) (hi : i = .trkInit w) (hp : parityOk w = true) (h : exec i s = .next (initialisedBy w s))
  | sampled (w : Frame) (hi : i = .trkSample w) (hp : parityOk w = true) (hs : s.initd = true)
      (h : exec i s = .next (sampledBy w s))
  | homed (hi : i = .setHome) (hs : s.initd = true)
      (h : exec i s = .next { s with turn := 0, home := s.last, rsp := some {} })
  | mirrored (m : Bool) (hi : i = .setMirror m) (h : exec i s = .next { s with mirror := m, rsp := some {} })

theorem Answers.of_encoder {i : Instr} {s : State} {body : Operand14 → Frame} {arg : Frame}
    (he : exec i s = encodeFrame body arg s) (hw : wellFormed i = decide (FitsOperand14 arg)) (hn : needsInit i = false)
    (hg : ∀ w, ¬GivesWord i w) : Answers i s := by
  obtain ⟨h, hf⟩ | ⟨f, h, hf⟩ := encodeFrame_cases body arg s
  · exact .wide (he.trans h) (by rw [WellFormed, hw, decide_eq_true_iff]; exact hf)
  · exact .plain _ (he.trans h) (by rw [WellFormed, hw]; exact decide_eq_true hf) (by simp [hn]) ⟨rfl, rfl, rfl, rfl, rfl⟩ hg

theorem Answers.of_reader {i : Instr} {s : State} {r : Response}
    (he : exec i s = ifInitialised s (answer s r)) (hw : WellFormed i) (hn : needsInit i = true) (hr : r.Plain)
    (hg : ∀ w, ¬GivesWord i w) : Answers i s := by
  obtain ⟨h, hi⟩ | ⟨h, hi⟩ := ifInitialised_answer_cases s r
  · exact .early (he.trans h) hw hn hi
  · exact .plain r (he.trans h) hw (fun _ => hi) hr hg

theorem faultRequest_of_bad {w : Frame} (h : parityOk w = false) : faultRequest w = true := by
  simp [faultRequest, h]

theorem exec_answers (i : Instr) (s : State) : Answers i s := by
  cases i with
  | encRead arg => exact .of_encoder (arg := arg) rfl rfl rfl (by simp [GivesWord])
  | encWaddr arg => exact .of_encoder (arg := arg) rfl rfl rfl (by simp [GivesWord])
  | encWdata arg => exact .of_encoder (arg := arg) rfl rfl rfl (by simp [GivesWord])
  | decAngle w => exact .plain _ rfl rfl nofun ⟨rfl, rfl, rfl, rfl, rfl⟩ (by simp [GivesWord])
  | decGeneric w => exact .plain _ rfl rfl nofun ⟨rfl, rfl, rfl, rfl, rfl⟩ (by simp [GivesWord])
  | trkInit w =>
    cases hp : parityOk w
    · exact .discarded w _ (execTrkInit_discarded w s hp) rfl nofun (.inl rfl) hp
        ⟨rfl, rfl, rfl, rfl, faultRequest_of_bad hp, hp⟩
    · exact .initialised w rfl hp (execTrkInit_accepted w s hp)
  | trkSample w =>
    cases hi : s.initd
    · exact .early (execTrkSample_refused w s hi) rfl rfl hi
    · cases hp : parityOk w
      · exact .discarded w _ (execTrkSample_discarded w s hi hp) rfl (fun _ => hi) (.inr rfl) hp
          ⟨rfl, rfl, rfl, rfl, faultRequest_of_bad hp, hp⟩
      · exact .sampled w rfl hp hi (execTrkSample_accepted w s hi hp)
  | setHome =>
    cases hi : s.initd
    · exact .early (ifInitialised_clear s _ hi) rfl rfl hi
    · exact .homed rfl hi (ifInitialised_set s _ hi)
  | setMirror m => exact .mirrored m rfl rfl
  | getAngle => exact .of_reader rfl rfl rfl ⟨rfl, rfl, rfl, rfl, rfl⟩ (by simp [GivesWord])
  | getTotal => exact .of_reader rfl rfl rfl ⟨rfl, rfl, rfl, rfl, rfl⟩ (by simp [GivesWord])
  | getDelta => exact .of_reader rfl rfl rfl ⟨rfl, rfl, rfl, rfl, rfl⟩ (by simp [GivesWord])

/-- At the defaults of R4 the parametric machine is the machine. -/
@[simp] theorem execWith_params (i : Instr) (s : State) : execWith Config.params i s = exec i s := by
  cases i <;> rfl

/-- An operation that reads no parameter has one meaning for all of them. -/
theorem execWith_of_not_usesParams (p : Params) {i : Instr} (s : State) (h : usesParams i = false) :
    execWith p i s = exec i s := by
  cases i <;> first | exact absurd h Bool.noConfusion | rfl

/-- What a step of the machine with the parameters `p` can be: a reset, an operation, a refusal of a reserved code, or nothing. -/
inductive StepsWith (p : Params) (s : State) : Prop where
  | reset (hr : s.portNow.reset = true) (h : stepWith p s = .next (s.portAdvance.applyReset p))
  | idle (hr : s.portNow.reset = false) (hv : s.portNow.reqValid = false) (h : stepWith p s = .next s.portAdvance.idle)
  | performs (i : Instr) (hr : s.portNow.reset = false) (hv : s.portNow.reqValid = true)
      (hd : decode s.portNow.req = .ok i) (h : stepWith p s = execWith p i s.portAdvance)
  | reserved (op : BitVec 4) (hr : s.portNow.reset = false) (hv : s.portNow.reqValid = true)
      (hd : decode s.portNow.req = .error (.reservedOp op)) (h : stepWith p s = turnAway s.portAdvance .reservedOp)

theorem stepWith_steps (p : Params) (s : State) : StepsWith p s := by
  cases hr : s.portNow.reset
  · cases hv : s.portNow.reqValid
    · exact .idle hr hv (by simp [stepWith, portStep, hr, hv])
    · cases hd : decode s.portNow.req with
      | ok i => exact .performs i hr hv hd (by simp [stepWith, portStep, performRequest, hr, hv, hd])
      | error e =>
        cases e with
        | reservedOp op => exact .reserved op hr hv hd (by simp [stepWith, portStep, performRequest, hr, hv, hd])
  · exact .reset hr (by simp [stepWith, portStep, hr])

/-- The step of the machine, its parameters named. -/
theorem step_eq_portStep (s : State) : step s = portStep s.portNow s.portAdvance Config.params := rfl

/-- What a step can be: a reset, an operation, a refusal of a reserved code, or nothing. -/
inductive Steps (s : State) : Prop where
  | reset (hr : s.portNow.reset = true) (h : step s = .next s.portAdvance.applyReset)
  | idle (hr : s.portNow.reset = false) (hv : s.portNow.reqValid = false) (h : step s = .next s.portAdvance.idle)
  | performs (i : Instr) (hr : s.portNow.reset = false) (hv : s.portNow.reqValid = true)
      (hd : decode s.portNow.req = .ok i) (h : step s = exec i s.portAdvance)
  | reserved (op : BitVec 4) (hr : s.portNow.reset = false) (hv : s.portNow.reqValid = true)
      (hd : decode s.portNow.req = .error (.reservedOp op)) (h : step s = turnAway s.portAdvance .reservedOp)

theorem step_steps (s : State) : Steps s := by
  cases stepWith_steps Config.params s with
  | reset hr h => exact .reset hr h
  | idle hr hv h => exact .idle hr hv h
  | performs i hr hv hd h => exact .performs i hr hv hd (h.trans (execWith_params i _))
  | reserved op hr hv hd h => exact .reserved op hr hv hd h

end Sys2Proof.Machine
end

