-- ==== Sys2Proof/Laws/Driver.lean ====
section
/-! SUPPORT. What each building block of the host's pseudo-operations does: an exchange, a decode, the two exchanges of a
register read. -/

namespace Sys2Proof.Machine

@[simp] theorem Driven.done_andThen {α β : Type} (a : α) (w : World) (f : α → World → Driven β) :
    (Driven.done a w).andThen f = f a w := rfl

@[simp] theorem Driven.stalled_andThen {α β : Type} (w : World) (f : α → World → Driven β) :
    (Driven.stalled (α := α) w).andThen f = .stalled w := rfl

theorem exchange_cons (x r : Frame) (rest : List Frame) (w : World) (h : w.bus.rx = r :: rest) :
    exchange x w = .done r { block := w.block, bus := { sent := w.bus.sent ++ [x], rx := rest } } := by
  simp [exchange, h]

theorem exchange_nil (x : Frame) (w : World) (h : w.bus.rx = []) : exchange x w = .stalled w := by
  simp [exchange, h]

/-- A frame survives its passage through `val`. -/
@[simp] theorem frameOf_val (f : Frame) (r : Response) (h : r.val = (f.toNat : Int)) : frameOf r = f := by
  apply BitVec.eq_of_toNat_eq
  simp [frameOf, h]

/-- A 14-bit operand is always in an encoder's range, and is what the encoder takes. -/
theorem operandInRange_argOf (a : Operand14) : operandInRange (argOf a) = true := by
  rw [operandInRange_iff, topBits_eq_zero_iff]
  simp [argOf]
  omega

theorem operand14_argOf (a : Operand14) : operand14 (argOf a) = a := by
  apply BitVec.eq_of_toNat_eq
  simp [operand14_toNat, argOf]
  exact a.isLt

/-- An operation that answers with a response leaves it in the block and hands it to the host. -/
theorem perform_of_next {p : Params} {i : Instr} {w : World} {t : State} {r : Response}
    (h : execWith p i w.block = .next t) (hr : t.rsp = some r) :
    perform i w p = .done r { block := t, bus := w.bus } := by
  simp [perform, h, hr]

/-- The frame the driver sends to read a register. -/
def readFrame (a : Operand14) (p : Params := Config.params) : Frame := setPar (cmdBody p.rwRead a)

theorem encReadWith_argOf (p : Params) (a : Operand14) (s : State) :
    encReadWith p (argOf a) s = .next { s with rsp := some { val := ((readFrame a p).toNat : Int) } } := by
  rw [encReadWith, encodeFrame_inRange _ _ _ (operandInRange_argOf a), operand14_argOf]
  rfl

theorem execEncRead_argOf (a : Operand14) (s : State) :
    execEncRead (argOf a) s = .next { s with rsp := some { val := ((readFrame a).toNat : Int) } } :=
  encReadWith_argOf Config.params a s

/-- The block after the encoder of a register read. -/
def afterReadCommand (a : Operand14) (s : State) (p : Params := Config.params) : State :=
  { s with rsp := some { val := ((readFrame a p).toNat : Int) } }

/-- A register read with two words to come: the command and the no-op frame go out, the second word is the answer. -/
theorem fetchRegister_done (a : Operand14) (w : World) (echo r : Frame) (rest : List Frame)
    (h : w.bus.rx = echo :: r :: rest) (p : Params := Config.params) :
    fetchRegister a w p = .done r
      { block := afterReadCommand a w.block p
        bus := { sent := w.bus.sent ++ [readFrame a p, p.nopFrame], rx := rest } } := by
  have hp : perform (.encRead (argOf a)) w p = _ := perform_of_next (encReadWith_argOf p a w.block) rfl
  simp only [fetchRegister, hp, Driven.done_andThen]
  rw [frameOf_val (readFrame a p) _ rfl]
  simp [exchange, h, afterReadCommand]

/-- A register read with no word to come stalls in its first exchange, and leaves the registers of the block. -/
theorem fetchRegister_stalled (a : Operand14) (w : World) (h : w.bus.rx = []) (p : Params := Config.params) :
    fetchRegister a w p = .stalled { block := afterReadCommand a w.block p, bus := w.bus } := by
  have hp : perform (.encRead (argOf a)) w p = _ := perform_of_next (encReadWith_argOf p a w.block) rfl
  simp only [fetchRegister, hp, Driven.done_andThen]
  simp [exchange, h, afterReadCommand]

/-- A register read with one word to come stalls in its second exchange, and leaves the registers of the block. -/
theorem fetchRegister_stalled_second (a : Operand14) (w : World) (echo : Frame) (h : w.bus.rx = [echo])
    (p : Params := Config.params) :
    fetchRegister a w p = .stalled
      { block := afterReadCommand a w.block p, bus := { sent := w.bus.sent ++ [readFrame a p], rx := [] } } := by
  have hp : perform (.encRead (argOf a)) w p = _ := perform_of_next (encReadWith_argOf p a w.block) rfl
  simp only [fetchRegister, hp, Driven.done_andThen]
  rw [frameOf_val (readFrame a p) _ rfl]
  simp [exchange, h, afterReadCommand]

end Sys2Proof.Machine
end

