-- ==== Sys2Proof/Laws/Encoding.lean ====
section
/-! SUPPORT. The request word and its two parts, and the numbers the operation table gives. -/

namespace Sys2Proof

@[simp] theorem requestOfWord_wordOfRequest (r : Request) : requestOfWord (wordOfRequest r) = r := by
  cases r with
  | mk op arg =>
    simp only [requestOfWord, wordOfRequest, Request.mk.injEq]
    constructor
    · exact BitVec.extractLsb'_append_eq_left
    · exact BitVec.extractLsb'_append_eq_right

@[simp] theorem wordOfRequest_requestOfWord (w : BitVec 20) : wordOfRequest (requestOfWord w) = w := by
  apply BitVec.eq_of_getLsbD_eq
  intro k hk
  simp only [wordOfRequest, requestOfWord, BitVec.getLsbD_append, BitVec.getLsbD_extractLsb']
  grind

/-- A number below 2^20 given in at least 20 bits is read as that request word. -/
theorem tableRequest_of_word (w : BitVec 20) (nbits : Nat) (h : 20 ≤ nbits) :
    tableRequest nbits w.toNat = some (requestOfWord w) := by
  have hw : w.toNat < 2 ^ nbits := Nat.lt_of_lt_of_le w.isLt (Nat.pow_le_pow_right (by omega) h)
  simp [tableRequest, Nat.mod_eq_of_lt hw, w.isLt]

/-- The decoder answers through the table's numbers what it answers on the word. -/
theorem decodeTableWord_of_word (w : BitVec 20) (nbits : Nat) (h : 20 ≤ nbits) (i : Instr) (hd : decodeWord w = .ok i) :
    decodeTableWord nbits w.toNat = some i := by
  simp only [decodeWord] at hd
  simp [decodeTableWord, tableRequest_of_word w nbits h, hd]

end Sys2Proof
end

