-- ==== Sys2Proof/Laws/PerInstr.lean ====
section
/-! SUPPORT. The family EncodeDecodes, instruction by instruction: the decoder reads the request the encoder writes. -/

namespace Sys2Proof.Laws.EncodeDecodes

/-- Decoding the request of an operation gives the operation, as a request and as a 20-bit word. -/
def Statement (i : Instr) : Prop := decode (encode i) = .ok i ∧ decodeWord (encodeWord i) = .ok i

theorem of_request {i : Instr} (h : decode (encode i) = .ok i) : Statement i :=
  ⟨h, by simpa [decodeWord, encodeWord] using h⟩

theorem encRead (arg : Frame) : Statement (.encRead arg) := of_request rfl
theorem encWaddr (arg : Frame) : Statement (.encWaddr arg) := of_request rfl
theorem encWdata (arg : Frame) : Statement (.encWdata arg) := of_request rfl
theorem decAngle (word : Frame) : Statement (.decAngle word) := of_request rfl
theorem decGeneric (word : Frame) : Statement (.decGeneric word) := of_request rfl
theorem trkInit (word : Frame) : Statement (.trkInit word) := of_request rfl
theorem trkSample (word : Frame) : Statement (.trkSample word) := of_request rfl
theorem setHome : Statement .setHome := of_request rfl
theorem setMirror (m : Bool) : Statement (.setMirror m) := of_request (by cases m <;> rfl)
theorem getAngle : Statement .getAngle := of_request rfl
theorem getTotal : Statement .getTotal := of_request rfl
theorem getDelta : Statement .getDelta := of_request rfl

end Sys2Proof.Laws.EncodeDecodes
end

