-- ==== Sys2Proof/Tests/Slice0.lean ====
section
/-! SUPPORT. Tests of the model against the worked examples and vectors of the spec (spec/95_test_vectors.md and the worked
example of each rule), one step each, and for every statement with hypotheses a witness that meets them together. -/

namespace Sys2Proof.Tests

open Sys2Proof Sys2Proof.Machine

/-! ## Helpers -/

/-- A state with the five registers given, nothing presented and no response driven. -/
def regs (last : Nat) (turn : Int) (home : Nat) (mirror initd : Bool) : State where
  last := BitVec.ofNat 10 last
  turn := turn
  home := BitVec.ofNat 10 home
  mirror := mirror
  initd := initd
  inputs := []
  rsp := none
  freeCount := 0

/-- The next state of an outcome. -/
def nextOf (r : Result) : Option State :=
  match r with
  | .next s => some s
  | .fault _ => none
  | .refused _ => none

/-- The response of an outcome. -/
def rspOf (r : Result) : Option Response := (nextOf r).bind (·.rsp)

/-- Why an outcome is a refusal by the block. -/
def whyOf (r : Result) : Option RefuseReason := (rspOf r).bind (·.refusal)

/-- The registers `LAST / TURN / HOME / MIRROR / INITD` after an outcome, as spec/95_test_vectors.md writes them. -/
def regsOf (r : Result) : Option (Nat × Int × Nat × Bool × Bool) :=
  (nextOf r).map fun s => (s.last.toNat, s.turn, s.home.toNat, s.mirror, s.initd)

/-! ## Well-formedness: an ill-formed term for each check (R60; section 2.2 of spec/95_test_vectors.md) -/

theorem test_wellFormed_refuses_encRead : wellFormed (.encRead 0x4000#16) = false := by decide
theorem test_wellFormed_refuses_encWaddr : wellFormed (.encWaddr 0x8000#16) = false := by decide
theorem test_wellFormed_refuses_encWdata : wellFormed (.encWdata 0x4000#16) = false := by decide
theorem test_wellFormed_takes_largest_operand : wellFormed (.encWdata 0x3FFF#16) = true := by decide

/-! ## Decoding: each operation's word written out bit by bit from its encoding (R55, R58) -/

theorem test_decode_encRead : decodeTableWord 24 0b0000_00_11111111111000 = some (.encRead 0x3FF8#16) := by decide
theorem test_decode_encWaddr : decodeTableWord 24 0b0001_00_11111111111000 = some (.encWaddr 0x3FF8#16) := by decide
theorem test_decode_encWdata : decodeTableWord 24 0b0010_00_00000000011111 = some (.encWdata 0x001F#16) := by decide
theorem test_decode_decAngle : decodeTableWord 24 0b0011_0000111111111001 = some (.decAngle 0x0FF9#16) := by decide
theorem test_decode_decGeneric : decodeTableWord 24 0b0100_0000000001111101 = some (.decGeneric 0x007D#16) := by decide
theorem test_decode_trkInit : decodeTableWord 24 0b0101_0000111111110000 = some (.trkInit 0x0FF0#16) := by decide
theorem test_decode_trkSample : decodeTableWord 24 0b0110_0000000000001001 = some (.trkSample 0x0009#16) := by decide
theorem test_decode_setHome_ignores_arg : decodeTableWord 24 0b0111_1010101010101010 = some .setHome := by decide
theorem test_decode_setMirror_one : decodeTableWord 24 0b1000_1111111111111111 = some (.setMirror true) := by decide
theorem test_decode_setMirror_zero : decodeTableWord 24 0b1000_1111111111111110 = some (.setMirror false) := by decide
theorem test_decode_getAngle : decodeTableWord 24 0b1001_0000000000000000 = some .getAngle := by decide
theorem test_decode_getTotal : decodeTableWord 24 0b1010_0000000000000001 = some .getTotal := by decide
theorem test_decode_getDelta : decodeTableWord 24 0b1011_1000000000000000 = some .getDelta := by decide
theorem test_decode_reserved : decodeTableWord 24 0b1100_0000000000000000 = none ∧
    decode { reqOp := 0xF#4, arg := 0xFFFF#16 } = .error (.reservedOp 0xF#4) := by decide

/-! ## The codec (R73, R75, R77, R79, R80: worked examples; sections 2.1 to 2.4 of the vectors) -/

theorem test_encRead : rspOf (exec (.encRead 0x3FF8#16) .reset) = some { val := 0xFFF0 } ∧
    rspOf (exec (.encRead 0x0000#16) .reset) = some { val := 0x8001 } := by decide
theorem test_encWaddr : rspOf (exec (.encWaddr 0x3FF8#16) .reset) = some { val := 0x7FF1 } ∧
    rspOf (exec (.encWaddr 0x1555#16) .reset) = some { val := 0x2AAB } := by decide
theorem test_encWdata : rspOf (exec (.encWdata 0x001F#16) .reset) = some { val := 0x007D } ∧
    rspOf (exec (.encWdata 0x2000#16) .reset) = some { val := 0x8001 } := by decide
theorem test_encoders_refuse_wide_operand : whyOf (exec (.encRead 0x4000#16) .reset) = some .operandRange ∧
    whyOf (exec (.encWaddr 0x8000#16) .reset) = some .operandRange ∧
    whyOf (exec (.encWdata 0x4000#16) .reset) = some .operandRange := by decide
theorem test_decAngle : rspOf (exec (.decAngle 0xABCD#16) .reset) = some { val := 755, parityOk := true, alarm := 2#2 } ∧
    rspOf (exec (.decAngle 0x1234#16) .reset) = some { val := 141, alarm := 1#2 } := by decide
theorem test_decGeneric : rspOf (exec (.decGeneric 0xABCD#16) .reset) = some { val := 2803, parityOk := true } ∧
    rspOf (exec (.decGeneric 0x7FFF#16) .reset) = some { val := 4095, errorFlag := true } := by decide
/-- Sections 2.3: every word at distance one from 0x0FF9 fails parity, the word 0x0FFA at distance two passes. -/
theorem test_single_bit_corruption :
    (List.range 16).all (fun k => !parityOk (0x0FF9#16 ^^^ BitVec.twoPow 16 k)) = true ∧ parityOk 0x0FFA#16 = true := by decide

/-! ## The tracker (R91, R94, R99 to R103: worked examples; sections 3 and 4 of the vectors) -/

theorem test_trkInit_accepts : rspOf (exec (.trkInit 0x0FF3#16) .reset) =
      some { val := 1020, parityOk := true, errorFlag := true, faultReq := true, accepted := true } ∧
    regsOf (exec (.trkInit 0x0AF0#16) (regs 2 1 1022 false true)) = some (700, 0, 700, false, true) := by decide
theorem test_trkInit_discards_bad_parity :
    rspOf (exec (.trkInit 0x000D#16) (regs 0 0 0 false false)) = some { faultReq := true } ∧
    regsOf (exec (.trkInit 0x000D#16) (regs 2 1 1022 false true)) = some (2, 1, 1022, false, true) := by decide
theorem test_trkSample_wraps_forward : rspOf (exec (.trkSample 0x0009#16) (regs 1022 0 1020 false true)) =
      some { val := 2, parityOk := true, accepted := true, turnInc := true } ∧
    regsOf (exec (.trkSample 0x0009#16) (regs 1022 0 1020 false true)) = some (2, 1, 1020, false, true) := by decide
theorem test_trkSample_backward_and_alarm :
    regsOf (exec (.trkSample 0x0FF5#16) (regs 3 0 3 false true)) = some (1021, -1, 3, false, true) ∧
    rspOf (exec (.trkSample 0x97DA#16) (regs 501 0 500 false true)) = some
      { val := 502, parityOk := true, errorFlag := true, alarm := 1#2, faultReq := true, accepted := true } := by decide
/-- Section 3.2: the edges of both bands, and the one pair that is not counted. -/
theorem test_wrap_edges : wrap 769#10 256#10 = 1 ∧ wrap 769#10 257#10 = 0 ∧ wrap 768#10 0#10 = 0 ∧
    wrap 255#10 768#10 = -1 ∧ wrap 255#10 767#10 = 0 ∧ wrap 256#10 768#10 = 0 ∧ wrap 0#10 768#10 = -1 := by decide
theorem test_setHome : regsOf (exec .setHome (regs 900 (-1) 3 false true)) = some (900, 0, 900, false, true) ∧
    whyOf (exec .setHome .reset) = some .notInitialised := by decide
/-- Section 3.6: the hazard of R148 as the rules compute it. -/
theorem test_setMirror : regsOf (exec (.setMirror true) (regs 10 0 10 false true)) = some (10, 0, 10, true, true) ∧
    regsOf (exec (.trkSample 0x0030#16) (regs 10 0 10 true true)) = some (1011, -1, 10, true, true) := by decide
theorem test_getAngle : rspOf (exec .getAngle (regs 5 1 1020 false true)) = some { val := 5 } ∧
    whyOf (exec .getAngle .reset) = some .notInitialised := by decide
theorem test_getTotal : rspOf (exec .getTotal (regs 5 1 1020 false true)) = some { val := 1029 } ∧
    rspOf (exec .getTotal (regs 1021 (-1) 3 false true)) = some { val := -3 } := by decide
theorem test_getDelta : rspOf (exec .getDelta (regs 5 1 1020 false true)) = some { val := 9 } ∧
    rspOf (exec .getDelta (regs 1021 (-1) 3 false true)) = some { val := -6 } := by decide

/-! ## The step and the host's operations -/

theorem test_step_performs_request :
    regsOf (step (State.reset.withFetchWord 24 0x5000C)) = some (3, 0, 3, false, true) ∧
    whyOf (step (State.reset.withFetchWord 24 0x60FF0)) = some .notInitialised ∧
    whyOf (step (State.reset.withFetchWord 24 0xD1234)) = some .reservedOp := by decide
theorem test_step_reset_input :
    (nextOf (step { regs 5 1 1020 true true with inputs := [{ reset := true, reqValid := true }] })).map
      (fun t => (t.turn, t.mirror, t.initd, t.rsp.isSome, t.inputs)) = some (0, false, false, false, []) := by decide
/-- Section 3.7: the rounding of the filter. -/
theorem test_roundedMean : roundedMean 3 2 = 2 ∧ roundedMean 21 4 = 5 ∧ roundedMean 2046 4 = 512 ∧ roundedMean 32 3 = 11 := by
  decide

/-! ## Witnesses: concrete operands and states that meet the hypotheses of each statement -/

theorem witness_DecodeOfEncode : 20 ≤ 24 ∧ decodeTableWord 24 (encodeWord (.setMirror true)).toNat = some (.setMirror true) := by
  decide
theorem witness_DecodeReadsExactlyCareBits :
    decodeWord 0x8FFFF#20 = .ok (.setMirror true) ∧ 0x8FFFF#20 &&& careMask (.setMirror true) = encodeWord (.setMirror true) ∧
    0x8FFFE#20 &&& careMask (.setMirror true) ≠ encodeWord (.setMirror true) := by decide
theorem witness_TableRowsMatchDecoder :
    opTable[0] ∈ opTable ∧ 0x03FFF#20 &&& opTable[0].mask = opTable[0].pattern ∧ 0x04000#20 &&& opTable[0].mask ≠ opTable[0].pattern ∧
    decodeWord 0x03FFF#20 = .ok (.encRead 0x3FFF#16) ∧ WellFormed (.encRead 0x3FFF#16) := by decide
theorem witness_StepRunsDecodedOperation :
    (∃ p : PortIn, p.reset = false ∧ p.reqValid = true ∧ decode p.req = .ok .getTotal) ∧
    decodeTableWord 24 0xA0000 = some .getTotal :=
  ⟨⟨{ reqValid := true, req := { reqOp := 0xA#4, arg := 0#16 } }, rfl, rfl, rfl⟩, rfl⟩
theorem witness_StepWithoutRequestKeepsRegisters :
    State.reset.portNow.reset = false ∧ State.reset.portNow.reqValid = false := by decide
theorem witness_StepRefusesReservedCodes :
    (State.reset.present { reqOp := 0xC#4, arg := 0#16 }).portNow.reset = false ∧
    (State.reset.present { reqOp := 0xC#4, arg := 0#16 }).portNow.reqValid = true ∧
    12 ≤ (State.reset.present { reqOp := 0xC#4, arg := 0#16 }).portNow.req.reqOp.toNat := by decide
theorem witness_ResetInputResetsTracker :
    ({ regs 5 1 1020 true true with inputs := [{ reset := true, reqValid := true }] } : State).portNow.reset = true := by decide
/-- An accepted TRK_INIT from reset: both clauses of the invariant hold after it with a response that is not refused. -/
theorem witness_StepKeepsInvariant :
    State.reset.Inv ∧ (State.reset.withFetchWord 24 0x5000C).Inv ∧
    ∃ t, step (State.reset.withFetchWord 24 0x5000C) = .next t ∧ t.initd = true :=
  ⟨⟨fun _ => rfl, nofun⟩, ⟨fun _ => rfl, nofun⟩, _, rfl, by decide⟩
theorem witness_OnlyResetClearsInitd :
    ((regs 5 1 1020 false true).present { reqOp := 0x9#4, arg := 0#16 }).initd = true ∧
    ((regs 5 1 1020 false true).present { reqOp := 0x9#4, arg := 0#16 }).portNow.reset = false := by decide
/-- Each register does change in some operation: LAST and TURN, HOME, MIRROR, INITD. -/
theorem witness_RegistersHaveNamedWriters :
    regsOf (exec (.trkSample 0x0009#16) (regs 1022 0 3 false true)) = some (2, 1, 3, false, true) ∧
    regsOf (exec .setHome (regs 900 (-1) 3 false true)) = some (900, 0, 900, false, true) ∧
    regsOf (exec (.setMirror true) (regs 900 (-1) 3 false true)) = some (900, -1, 3, true, true) ∧
    regsOf (exec (.trkInit 0x000C#16) (regs 0 0 0 false false)) = some (3, 0, 3, false, true) :=
  ⟨by decide, by decide, by decide, by decide⟩
/-- The three outcomes of the rule: wide operand, not initialised, not refused at the boundary 0x3FFF. -/
theorem witness_RefusalsAndTheirReasons :
    ¬WellFormed (.encRead 0x4000#16) ∧ whyOf (exec (.encRead 0x4000#16) .reset) = some .operandRange ∧
    needsInit .getTotal = true ∧ whyOf (exec .getTotal .reset) = some .notInitialised ∧
    whyOf (exec (.encRead 0x3FFF#16) .reset) = none := by decide
theorem witness_RefusedOrDiscardedChangesNothing :
    (∃ w, parityOk w = false ∧ (Instr.trkInit 0x000D#16 = .trkInit w ∨ Instr.trkInit 0x000D#16 = .trkSample w)) ∧
    (whyOf (exec .setHome .reset)).isSome = true := ⟨⟨0x000D#16, by decide, .inl rfl⟩, by decide⟩
theorem witness_FaultRequestRule :
    (rspOf (exec (.trkSample 0x0FA3#16) (regs 5 0 5 false true))).map (fun r => (r.refused, r.faultReq)) = some (false, true) ∧
    (rspOf (exec (.decAngle 0x0FA3#16) (regs 5 0 5 false true))).map (fun r => (r.refused, r.faultReq)) = some (false, false) := by
  decide
theorem witness_OnlyGetDeltaReadsHome : Instr.getTotal ≠ .getDelta ∧
    rspOf (exec .getDelta (regs 5 0 5 false true)) ≠ rspOf (exec .getDelta (regs 5 0 6 false true)) := by decide
theorem witness_RunsCompleteAndGoRight :
    (regs 5 0 5 false true).initd = true ∧
    (∀ r ∈ [({ reqOp := 0xA#4, arg := 0#16 } : Request)], ∃ i, decode r = .ok i ∧ WellFormed i) ∧
    wentWrong [{ reqOp := 0xC#4, arg := 0#16 }] (regs 5 0 5 false true) = true :=
  ⟨rfl, by rintro r hr; simp only [List.mem_singleton] at hr; subst hr; exact ⟨.getTotal, rfl, rfl⟩, by decide⟩
theorem witness_ParityFunctions :
    (0x8000#16).getLsbD 0 = false ∧ WellFormed (.encRead 0x3FFF#16) ∧ par15 0x8000#16 = true ∧ parityOk 0x8000#16 = false := by
  decide
theorem witness_ParityDetectsOddCorruption :
    popcount 0x0001#16 % 2 = 1 ∧ popcount 0x8001#16 % 2 = 0 ∧ parityOk 0x0FF9#16 = true ∧ 15 < 16 ∧ 0 ≠ 15 := by decide
theorem witness_EncReadDrivesReadCommand : (0x3FFF#16).extractLsb' 14 2 = 0#2 := by decide
theorem witness_EncWaddrDrivesWriteCommand : (0x0000#16).extractLsb' 14 2 = 0#2 := by decide
theorem witness_EncWdataDrivesDataFrame : (0x3FFF#16).extractLsb' 14 2 = 0#2 := by decide
theorem witness_EncodersRefuseWideOperands : (0x4000#16).extractLsb' 14 2 ≠ 0#2 ∧ (0x8000#16).extractLsb' 14 2 ≠ 0#2 := by decide
theorem witness_CommandFramesDifferInTwoBits : (0x3FF8#16).extractLsb' 14 2 = 0#2 := by decide
theorem witness_EncoderImages :
    (0xFFF0#16).getLsbD 15 = true ∧ popcount 0xFFF0#16 % 2 = 0 ∧ (0x7FF1#16).getLsbD 15 = false ∧ popcount 0x7FF1#16 % 2 = 0 ∧
    (0x007D#16).getLsbD 1 = false ∧ popcount 0x007D#16 % 2 = 0 := by decide
theorem witness_WriteDataRoundTrip : (0x3FFF#16).toNat < 16384 ∧ (0x1000#16).toNat < 16384 := by decide
theorem witness_CodecIsStateless : WellFormed (.encWdata 0x3FFF#16) ∧ WellFormed (.decAngle 0xFFFF#16) := by decide
theorem witness_MirrorAndWrapFunctions :
    (768 < (769#10).toNat ∧ (256#10).toNat ≤ 256) ∧ ((255#10).toNat < 256 ∧ 768 ≤ (768#10).toNat) := by decide
theorem witness_TrkInitEstablishesTracker : popcount 0x000C#16 % 2 = 0 ∧ popcount 0x000D#16 % 2 = 1 := by decide
theorem witness_TrkSampleTakesSample :
    State.reset.initd = false ∧ (regs 1022 0 1020 false true).initd = true ∧
    popcount 0x0009#16 % 2 = 0 ∧ popcount 0x0008#16 % 2 = 1 := by decide
theorem witness_WrapRule : (regs 769 0 0 false true).initd = true ∧ parityOk 0x0401#16 = true ∧
    regsOf (exec (.trkSample 0x0401#16) (regs 769 0 0 false true)) = some (256, 1, 0, false, true) ∧
    regsOf (exec (.trkSample 0x0C00#16) (regs 255 0 0 false true)) = some (768, -1, 0, false, true) := by decide
theorem witness_ParityMasksCorruptSamples :
    (regs 1000 0 1000 false true).initd = true ∧ (∀ w ∈ [0x0029#16, 0x0029#16], parityOk w = false) ∧ parityOk 0x0FA5#16 = true := by
  refine ⟨rfl, fun w hw => ?_, by decide⟩
  simp only [List.mem_cons, List.not_mem_nil, or_false, or_self] at hw
  subst hw
  decide
theorem witness_ErrorFlagDoesNotGateAcceptance :
    (regs 1021 (-1) 3 false true).initd = true ∧ parityOk 0x0FA3#16 = true ∧ (0x0FA3#16).getLsbD 1 = true := by decide
theorem witness_TrackerReadsOnlyAngleField :
    (regs 501 0 500 false true).initd = true ∧ parityOk 0x97DA#16 = true ∧ parityOk 0x07D9#16 = true ∧
    angleField 0x97DA#16 = angleField 0x07D9#16 ∧ alarmField 0x97DA#16 ≠ alarmField 0x07D9#16 := by decide
theorem witness_TurnChangesByAtMostOne :
    (rspOf (exec (.trkSample 0x0009#16) (regs 1022 0 1020 false true))).map (·.refused) = some false ∧
    (rspOf (exec (.trkSample 0x0009#16) .reset)).map (·.refused) = some true := by decide
theorem witness_SetHomeAnchorsHere : (regs 900 (-1) 3 false true).initd = true ∧ State.reset.initd = false := by decide
theorem witness_GetAngleReadsLast : (regs 5 1 1020 true true).initd = true ∧ parityOk 0x0FA5#16 = true ∧ State.reset.initd = false := by decide
theorem witness_GetTotalReadsContinuousAngle : (regs 1021 (-1) 3 false true).initd = true ∧ State.reset.initd = false := by decide
theorem witness_GetDeltaReadsAngleFromHome : (regs 5 1 1020 false true).initd = true ∧ State.reset.initd = false := by decide
theorem witness_HomeGivesZeroDelta :
    (Instr.setHome = .setHome ∧ (regs 900 (-1) 3 false true).initd = true) ∧
    (∃ w, Instr.trkInit 0x000C#16 = .trkInit w ∧ parityOk w = true) ∧
    (nextOf (exec .setHome (regs 900 (-1) 3 false true))).isSome = true ∧ (nextOf (exec (.trkInit 0x000C#16) .reset)).isSome = true :=
  ⟨⟨rfl, rfl⟩, ⟨0x000C#16, rfl, by decide⟩, by decide, by decide⟩
/-- A forward crossing, the largest backward step, and the excepted pair 768 by +256. -/
theorem witness_AcceptedStepMovesTotalByStep :
    CircularStep 1022#10 (sampledAngle 0x0009#16 false) 4 ∧ CircularStep 0#10 (sampledAngle 0x0C00#16 false) (-256) ∧
    CircularStep 768#10 (sampledAngle 0x0000#16 false) 256 ∧
    parityOk 0x0009#16 = true ∧ parityOk 0x0C00#16 = true ∧ parityOk 0x0000#16 = true := by decide
/-- The source's scenario S1: 1020, then 1022, 2, 5. -/
theorem witness_TotalIsSumOfSteps :
    (regs 1020 0 1020 false true).initd = true ∧
    WithinQuadrant false 1020#10 [(0x0FF9#16, 2), (0x0009#16, 4), (0x0014#16, 3)] := by
  refine ⟨rfl, by decide, by decide, by decide, by decide, by decide, by decide, by decide, by decide, ?_⟩
  exact ⟨by decide, by decide, by decide, by decide, trivial⟩
theorem witness_MirrorReversesDirection : CircularStep 1022#10 2#10 4 ∧
    CircularStep (mirrorFn 1022#10 true) (mirrorFn 2#10 true) (-4) := by decide
/-- With an 8-bit counter, TURN = 126 may go up by one and TURN = 127 may not. -/
theorem witness_FiniteTurnWidthRefusesOverflow :
    1 ≤ 8 ∧ (regs 1022 126 0 false true).initd = true ∧ parityOk 0x0009#16 = true ∧
    regsOf (sampleAt (some 8) 0x0009#16 (regs 1022 126 0 false true)) = some (2, 127, 0, false, true) ∧
    (nextOf (sampleAt (some 8) 0x0009#16 (regs 1022 127 0 false true))).isNone = true := by decide

/-- A world whose sensor will return the given words. -/
def world (s : State) (rx : List Frame) : World := { block := s, bus := { sent := [], rx := rx } }

theorem witness_ReadIsTwoExchanges : (world .reset [0x1234#16, 0x0191#16]).bus.rx = [0x1234#16, 0x0191#16] := rfl
theorem witness_WriteIsThreeExchanges :
    (world .reset [1#16, 2#16, 0x0078#16]).bus.rx = 1#16 :: 2#16 :: 0x0078#16 :: [] := rfl
/-- Three samples of one word, with three different echoes. -/
theorem witness_FilterOfConstantStream :
    1 ≤ 3 ∧ [0#16, 0x8000#16, 0xFFFF#16].length = 3 ∧
    (world (regs 7 0 7 false true) [0#16, 0x001D#16, 0x8000#16, 0x001D#16, 0xFFFF#16, 0x001D#16]).block.initd = true ∧
    parityOk 0x001D#16 = true ∧
    (world (regs 7 0 7 false true) [0#16, 0x001D#16, 0x8000#16, 0x001D#16, 0xFFFF#16, 0x001D#16]).bus.rx =
      ([0#16, 0x8000#16, 0xFFFF#16].flatMap fun e => [e, 0x001D#16]) ++ [] := by decide
/-- One repeat after a bad initial read (0x0190 has odd parity), and none. -/
theorem witness_ConstructEstablishesTracker :
    ((world .reset [1#16, 2#16, 3#16, 4#16, 5#16, 0x0190#16, 6#16, 0x0191#16]).bus.rx =
      1#16 :: 2#16 :: 3#16 :: 4#16 :: (([(5#16, 0x0190#16)].flatMap fun x => [x.1, x.2]) ++ 6#16 :: 0x0191#16 :: [])) ∧
    (∀ x ∈ [((5#16, 0x0190#16) : Frame × Frame)], parityOk x.2 = false) ∧
    (∀ x ∈ ([] : List (Frame × Frame)), parityOk x.2 = false) ∧ parityOk 0x0191#16 = true := by
  refine ⟨rfl, fun x hx => ?_, nofun, by decide⟩
  rw [List.mem_singleton.1 hx]
  decide
theorem witness_StalledTransportKeepsBlock :
    (world .reset []).bus.rx = [] ∧ (world .reset [1#16]).bus.rx.length < 2 ∧ (world .reset [1#16, 2#16]).bus.rx.length < 3 := by
  decide

/-- Parameters that differ from the defaults of R4 in every field that has one. -/
def flipped : Params :=
  { Config.params with turnWidth := some 8, rwRead := 0#1, wdataDc := 1#1, mirrorReset := true }

theorem witness_EncodersFollowTheirParameters :
    (0x3FF8#16).extractLsb' 14 2 = 0#2 ∧
    rspOf (execWith flipped (.encRead 0x3FF8#16) .reset) = some { val := 0x7FF1 } ∧
    rspOf (execWith flipped (.encWaddr 0x3FF8#16) .reset) = some { val := 0xFFF0 } ∧
    rspOf (execWith flipped (.encWdata 0x001F#16) .reset) = some { val := 0x007E } := by decide
theorem witness_ParametersReachOnlyTheirOperations :
    usesParams .setHome = false ∧ ¬WellFormed (.encRead 0x4000#16) ∧ flipped.turnWidth = flipped.turnWidth ∧
    ({ regs 5 1 1020 true true with inputs := [{ reset := true }] } : State).portNow.reset = true ∧
    rspOf (execWith flipped (.encRead 0#16) .reset) ≠ rspOf (execWith Config.params (.encRead 0#16) .reset) := by decide
/-- A counter of 8 bits at its upper end: a forward wrap is refused there, a sample that does not wrap is not. -/
theorem witness_TurnStaysWithinItsWidth :
    flipped.turnWidth = some 8 ∧ 1 ≤ 8 ∧ (regs 1022 127 0 false true).TurnWithin 8 ∧ (regs 1022 (-128) 0 false true).TurnWithin 8 ∧
    (nextOf (stepWith flipped ((regs 1022 127 0 false true).present { reqOp := 0x6#4, arg := 0x0009#16 }))).isNone = true ∧
    regsOf (stepWith flipped ((regs 1022 127 0 false true).present { reqOp := 0x6#4, arg := 0x0FF0#16 })) =
      some (1020, 127, 0, false, true) ∧
    Config.params.turnWidth = none := by decide

end Sys2Proof.Tests
end

/-! SUPPORT. READ (R34): what a register read that completes answers and leaves behind, for any parameters. -/

namespace Sys2Proof.Machine

/-- An operation that writes no register hands its response to the host and leaves it in the block. -/
theorem perform_of_answer {p : Params} {i : Instr} {w : World} {r : Response}
    (h : execWith p i w.block = answer w.block r) :
    perform i w p = .done r { block := w.block.respond r, bus := w.bus } :=
  perform_of_next h rfl

/-- What DEC_ANGLE answers (R79). -/
def angleResponse (word : Frame) : Response :=
  { angleReport word with val := ((angleField word).toNat : Int) }

/-- What DEC_GENERIC answers (R80). -/
def genericResponse (word : Frame) : Response :=
  { val := ((genericField word).toNat : Int), parityOk := parityOk word, errorFlag := errorBit word }

theorem exec_decAngle (word : Frame) (s : State) : exec (.decAngle word) s = answer s (angleResponse word) := rfl

theorem exec_decGeneric (word : Frame) (s : State) : exec (.decGeneric word) s = answer s (genericResponse word) := rfl

theorem execWith_decAngle (p : Params) (word : Frame) (s : State) :
    execWith p (.decAngle word) s = answer s (angleResponse word) := rfl

theorem execWith_decGeneric (p : Params) (word : Frame) (s : State) :
    execWith p (.decGeneric word) s = answer s (genericResponse word) := rfl

/-- What READ answers: the word decoded in angle mode exactly for the angle register (R34, R38). -/
def readResponse (a : Operand14) (word : Frame) (p : Params := Config.params) : Response :=
  if a = p.addrAngle then angleResponse word else genericResponse word

theorem readResponse_angle {a : Operand14} {p : Params} (word : Frame) (h : a = p.addrAngle) :
    readResponse a word p = angleResponse word := if_pos h

theorem readResponse_generic {a : Operand14} {p : Params} (word : Frame) (h : a ≠ p.addrAngle) :
    readResponse a word p = genericResponse word := if_neg h

/-- READ with two words to come: the command and the no-op frame go out, the second word is decoded, and of the block only
the response changes. -/
theorem driverRead_done (a : Operand14) (w : World) (echo r : Frame) (rest : List Frame)
    (h : w.bus.rx = echo :: r :: rest) (p : Params := Config.params) :
    driverRead a w p = .done (readResponse a r p)
      { block := w.block.respond (readResponse a r p)
        bus := { sent := w.bus.sent ++ [readFrame a p, p.nopFrame], rx := rest } } := by
  simp only [driverRead, fetchRegister_done a w echo r rest h p, Driven.done_andThen]
  split
  next ha =>
    rw [readResponse_angle r ha]
    exact perform_of_answer (execWith_decAngle p r _)
  next ha =>
    rw [readResponse_generic r ha]
    exact perform_of_answer (execWith_decGeneric p r _)

/-- Settles O52: `driverRead_done` at the defaults of R4, with the decoder of each mode. -/
theorem readIsTwoExchanges : Obligations.ReadIsTwoExchanges := by
  intro w address echo r rest hrx
  refine ⟨readFrame address, readResponse address r, _, execEncRead_argOf address w.block,
    driverRead_done address w echo r rest hrx, rfl, rfl, ⟨rfl, rfl, rfl, rfl, rfl⟩, fun ha => ?_, fun ha => ?_⟩
  · rw [readResponse_angle r ha]
    exact exec_decAngle r w.block
  · rw [readResponse_generic r ha]
    exact exec_decGeneric r w.block

end Sys2Proof.Machine

/-! SUPPORT. The parity functions (R70): their bodies, the parity fault of the glossary, and their users. -/

namespace Sys2Proof.Machine

/-- The body of a command frame has bit 0 clear, so its parity slot is free (R51). -/
theorem cmdBody_low (rw : BitVec 1) (a : Operand14) : (cmdBody rw a).getLsbD 0 = false := by
  simp [cmdBody]

/-- The body of a write-data frame has bit 0 clear, so its parity slot is free (R52). -/
theorem wdataBody_low (dc : BitVec 1) (x : Operand14) : (wdataBody dc x).getLsbD 0 = false := by
  simp [wdataBody]

theorem par15_eq_decide (w : Frame) : par15 w = decide (popcount (w.extractLsb' 1 15) % 2 = 1) :=
  xorReduce_eq_decide _

/-- The parity fault of the glossary: bit 0 differs from the parity of the other bits (R70). -/
theorem parityOk_eq_false_iff (w : Frame) : parityOk w = false ↔ w.getLsbD 0 ≠ par15 w := by
  rw [parityOk, xorReduce_eq_low_xor_par15]
  simp

/-- In the parity slot of a body, SET_PAR puts the parity of the other bits (R70). -/
theorem setPar_low (b : Frame) (h : b.getLsbD 0 = false) : (setPar b).getLsbD 0 = par15 b := by
  rw [setPar_getLsbD, h]
  simp

theorem setPar_getLsbD_of_pos (b : Frame) {k : Nat} (h : 0 < k) : (setPar b).getLsbD k = b.getLsbD k := by
  rw [setPar_getLsbD]
  simp [h.ne']

/-- What an encoder whose body has bit 0 clear drives for an operand that fits (R70). -/
theorem encodeFrame_drives_setPar {body : Operand14 → Frame} (hb : ∀ x, (body x).getLsbD 0 = false) {arg : Frame}
    (h : FitsOperand14 arg) (s : State) :
    ∃ b : Frame, b.getLsbD 0 = false ∧
      encodeFrame body arg s = .next (s.respond { val := ((setPar b).toNat : Int) }) :=
  ⟨body (operand14 arg), hb _,
    encodeFrame_inRange body arg s (by rw [operandInRange_eq_wellFormed]; exact decide_eq_true h)⟩

/-- Settles O20: the laws of the parity functions, then one case per encoder and per decoder. -/
theorem parityFunctions : Obligations.ParityFunctions := by
  refine ⟨fun w => ?_, fun w => ?_, fun w => (parityOk_eq_false_iff w).symm,
    fun b h => ⟨setPar_low b h, fun k => setPar_getLsbD_of_pos b⟩, ?_, ?_⟩
  · rw [par15_eq_decide, decide_eq_true_iff]
  · rw [parityOk_eq_decide, decide_eq_true_iff]
  · rintro s arg i hw (rfl | rfl | rfl)
    · exact encodeFrame_drives_setPar (cmdBody_low _) (of_decide_eq_true hw) s
    · exact encodeFrame_drives_setPar (cmdBody_low _) (of_decide_eq_true hw) s
    · exact encodeFrame_drives_setPar (wdataBody_low _) (of_decide_eq_true hw) s
  · rintro s w i (rfl | rfl)
    · exact ⟨_, _, exec_decAngle w s, rfl, rfl⟩
    · exact ⟨_, _, exec_decGeneric w s, rfl, rfl⟩

end Sys2Proof.Machine

/-! SUPPORT. The tracker's pure functions, what it reports of a word, and the state an accepted sample leaves (R90 to R102). -/

namespace Sys2Proof.Machine

theorem mirrorFn_true_toNat (a : Angle) : (mirrorFn a true).toNat = 1023 - a.toNat := by
  simp [mirrorFn_toNat]

/-- Mirroring is the complement of the ten bits: `R - 1` is all ones (R90). -/
theorem mirrorFn_true (a : Angle) : mirrorFn a true = ~~~a := by
  apply BitVec.eq_of_toNat_eq
  rw [mirrorFn_true_toNat, BitVec.toNat_not]

@[simp] theorem mirrorFn_true_mirrorFn_true (a : Angle) : mirrorFn (mirrorFn a true) true = a := by
  simp only [mirrorFn_true, BitVec.not_not]

theorem wrap_eq_one_iff (p n : Angle) : wrap p n = 1 ↔ 768 < p.toNat ∧ n.toNat ≤ 256 := by
  rw [wrap_eq]
  split
  next h => exact iff_of_true rfl h
  next h => split <;> simp [h]

/-- A pair in both crossings would count up; since 256 < 768 there is none. -/
theorem wrap_eq_neg_one_iff (p n : Angle) : wrap p n = -1 ↔ p.toNat < 256 ∧ 768 ≤ n.toNat := by
  rw [wrap_eq]
  split
  · constructor <;> omega
  · split
    next h => exact iff_of_true rfl h
    next h => simp [h]

theorem wrap_cases (p n : Angle) : wrap p n = 1 ∨ wrap p n = -1 ∨ wrap p n = 0 := by
  rw [wrap_eq]
  split
  · exact .inl rfl
  · split
    · exact .inr (.inl rfl)
    · exact .inr (.inr rfl)

/-- No angle lies in both of the bands a crossing joins (R94). -/
@[simp] theorem wrap_self (x : Angle) : wrap x x = 0 := by
  rw [wrap_eq, if_neg (by omega), if_neg (by omega)]

theorem sampledAngle_toNat (w : Frame) (m : Bool) :
    (sampledAngle w m).toNat = if m then 1023 - w.toNat / 4 % 1024 else w.toNat / 4 % 1024 := by
  rw [sampledAngle, mirrorFn_toNat, angleField_toNat]

theorem faultRequest_iff (w : Frame) : faultRequest w = true ↔ parityOk w = false ∨ w.getLsbD 1 = true := by
  simp [faultRequest, errorBit]

theorem trackerReport_of_good {w : Frame} (h : parityOk w = true) :
    trackerReport w = { parityOk := true, errorFlag := w.getLsbD 1, alarm := BitVec.ofNat 2 (w.toNat / 4096),
                        faultReq := w.getLsbD 1 } := by
  simp [trackerReport, angleReport, faultRequest, errorBit, alarmField_eq_ofNat, h]

theorem trackerReport_of_bad {w : Frame} (h : parityOk w = false) :
    trackerReport w = { parityOk := false, errorFlag := w.getLsbD 1, alarm := BitVec.ofNat 2 (w.toNat / 4096),
                        faultReq := true } := by
  simp [trackerReport, angleReport, faultRequest_of_bad, errorBit, alarmField_eq_ofNat, h]

@[simp] theorem sampledBy_last (w : Frame) (s : State) : (sampledBy w s).last = sampledAngle w s.mirror := rfl
@[simp] theorem sampledBy_turn (w : Frame) (s : State) :
    (sampledBy w s).turn = s.turn + wrap s.last (sampledAngle w s.mirror) := rfl
@[simp] theorem sampledBy_initd (w : Frame) (s : State) : (sampledBy w s).initd = s.initd := rfl

theorem parityOk_of_even {w : Frame} (h : popcount w % 2 = 0) : parityOk w = true := by
  rw [parityOk_eq_decide, decide_eq_true h]

theorem parityOk_of_odd {w : Frame} (h : popcount w % 2 = 1) : parityOk w = false := by
  rw [parityOk_eq_decide, decide_eq_false (by omega)]

/-- A request performs the operation its select code decodes to (R56, R58). -/
theorem performRequest_of_decode {r : Request} {i : Instr} (s : State) (h : decode r = .ok i) :
    performRequest r s = exec i s := by
  simp [performRequest, h]

/-- What a refused operation leaves: the registers, and a response that names the reason (R8, R62). -/
theorem turnAway_keepsRegisters {x : Result} {s : State} {why : RefuseReason} (h : x = turnAway s why) :
    ∃ t r, x = .next t ∧ KeepsRegisters s t ∧ t.rsp = some r ∧ r.refused = true ∧ r.refusal = some why :=
  ⟨s.refuse why, refusedResponse s.freeCount why, h, ⟨rfl, rfl, rfl, rfl, rfl⟩, rfl, rfl, rfl⟩

theorem exec_trkSample (w : Frame) (s : State) : exec (.trkSample w) s = execTrkSample w s := rfl

theorem exec_getAngle_set {s : State} (hi : s.initd = true) :
    exec .getAngle s = .next { s with rsp := some { val := (s.last.toNat : Int) } } :=
  ifInitialised_set s _ hi

theorem exec_getTotal_set {s : State} (hi : s.initd = true) :
    exec .getTotal s = .next { s with rsp := some { val := s.total } } :=
  ifInitialised_set s _ hi

theorem State.total_eq (s : State) : s.total = s.turn * 1024 + (s.last.toNat : Int) := rfl

/-- LAST is a remainder below `R`, so the quotient and the remainder of the continuous angle are TURN and LAST (R102). -/
theorem State.total_div_resolution (s : State) : s.total / 1024 = s.turn := by
  have hlast := s.last.isLt
  rw [State.total_eq]
  omega

theorem State.total_mod_resolution (s : State) : s.total % 1024 = (s.last.toNat : Int) := by
  have hlast := s.last.isLt
  rw [State.total_eq]
  omega

/-- WRAP by closed bands, as the boundary table has it (R95). -/
theorem wrap_eq_closedBands (p n : Angle) :
    wrap p n = if 769 ≤ p.toNat ∧ n.toNat ≤ 256 then 1 else if p.toNat ≤ 255 ∧ 768 ≤ n.toNat then -1 else 0 :=
  (wrap_eq p n).trans (if_congr Iff.rfl rfl (if_congr (and_congr_left' Nat.lt_succ_iff) rfl rfl))

/-- The pairs that count up are a rectangle of the two bands (R95). -/
theorem filter_wrap_eq_one :
    (Finset.univ.filter fun x : Fin 1024 × Fin 1024 => wrap (BitVec.ofFin x.1) (BitVec.ofFin x.2) = 1) =
      Finset.Ioi 768 ×ˢ Finset.Iic 256 := by
  ext x
  simp [wrap_eq_one_iff, Fin.lt_def, Fin.le_def]

/-- The pairs that count down are a rectangle of the two bands (R95). -/
theorem filter_wrap_eq_neg_one :
    (Finset.univ.filter fun x : Fin 1024 × Fin 1024 => wrap (BitVec.ofFin x.1) (BitVec.ofFin x.2) = -1) =
      Finset.Iio 256 ×ˢ Finset.Ici 768 := by
  ext x
  simp [wrap_eq_neg_one_iff, Fin.lt_def, Fin.le_def]

/-- Settles O34: mirroring is the complement, and WRAP's two conditions exclude each other. -/
theorem mirrorAndWrapFunctions : Obligations.MirrorAndWrapFunctions := by
  refine ⟨fun a => ⟨mirrorFn_false a, mirrorFn_true_toNat a, mirrorFn_true a⟩, mirrorFn_true_mirrorFn_true,
    fun b => ⟨mirrorFn b true, mirrorFn_true_mirrorFn_true b⟩,
    fun p n => ⟨wrap_eq_one_iff p n, ?_, wrap_cases p n⟩⟩
  rw [wrap_eq_neg_one_iff]
  omega

/-- Settles O36: the three cases of TRK_SAMPLE, with the report of its word written out. -/
theorem trkSampleTakesSample : Obligations.TrkSampleTakesSample := by
  refine fun s w => ⟨performRequest_of_decode s rfl, fun hi => ?_, fun hi hw => ?_, fun hi hw => ?_, wrap_self⟩
  · exact turnAway_keepsRegisters (execTrkSample_refused w s hi)
  · have hp := parityOk_of_even hw
    refine ⟨sampledAngle w s.mirror, sampledAngle_toNat w s.mirror, ?_⟩
    rw [exec_trkSample, execTrkSample_accepted w s hi hp, sampledBy, trackerReport_of_good hp]
    rfl
  · have hp := parityOk_of_odd hw
    rw [exec_trkSample, execTrkSample_discarded w s hi hp, trackerReport_of_bad hp]
    rfl

/-- Settles O37: WRAP in the bounds of the table, and the sizes of the two rectangles of pairs. -/
theorem wrapRule : Obligations.WrapRule := by
  refine ⟨fun s w hi hp => ⟨sampledBy w s, execTrkSample_accepted w s hi hp, rfl, ?_⟩, ?_, ?_⟩
  · rw [sampledBy_turn, sampledBy_last, wrap_eq_closedBands]
  · rw [filter_wrap_eq_one, Finset.card_product, Fin.card_Ioi, Fin.card_Iic]
    rfl
  · rw [filter_wrap_eq_neg_one, Finset.card_product, Fin.card_Iio, Fin.card_Ici]
    rfl

/-- Settles O39: the response to a sample, by its parity; the fault request is the same function of the word in both cases. -/
theorem errorFlagDoesNotGateAcceptance : Obligations.ErrorFlagDoesNotGateAcceptance := by
  refine ⟨fun s w hi hp he => ?_, fun s w hi => ?_⟩
  · exact ⟨sampledBy w s, _, execTrkSample_accepted w s hi hp, rfl, rfl, (faultRequest_iff w).mpr (.inr he), rfl, rfl⟩
  · cases hp : parityOk w
    case false =>
      refine ⟨_, _, execTrkSample_discarded w s hi hp, rfl, ?_, hp ▸ faultRequest_iff w⟩
      exact iff_of_false Bool.false_ne_true Bool.false_ne_true
    case true =>
      exact ⟨_, _, execTrkSample_accepted w s hi hp, rfl, iff_of_true rfl rfl, hp ▸ faultRequest_iff w⟩

/-- Settles O44: LAST is read, and an accepted sample puts its mirrored angle there. -/
theorem getAngleReadsLast : Obligations.GetAngleReadsLast := by
  refine fun s => ⟨fun arg => performRequest_of_decode s rfl, fun hi => ⟨exec_getAngle_set hi, ?_⟩, fun w hi hp => ?_,
    fun hi => turnAway_keepsRegisters (ifInitialised_clear s _ hi)⟩
  · exact Nat.le_of_lt_succ s.last.isLt
  · refine ⟨sampledBy w s, execTrkSample_accepted w s hi hp, ?_⟩
    rw [← sampledAngle_toNat]
    exact exec_getAngle_set ((sampledBy_initd w s).trans hi)

/-- Settles O45: the continuous angle is read, and division with remainder gives its two parts back. -/
theorem getTotalReadsContinuousAngle : Obligations.GetTotalReadsContinuousAngle :=
  fun s => ⟨fun _ => performRequest_of_decode s rfl,
    fun hi => ⟨s.total, exec_getTotal_set hi, s.total_eq, s.total_div_resolution.symm, s.total_mod_resolution.symm⟩,
    fun hi => turnAway_keepsRegisters (ifInitialised_clear s _ hi)⟩

end Sys2Proof.Machine

/-! SUPPORT. The request word against the decoder and the operation table (R55, R58, R60, R63): a masked word compared part
by part, and what the decoder reads of each part. -/

namespace Sys2Proof

theorem eq_wordOfRequest_iff (w : BitVec 20) (r : Request) : w = wordOfRequest r ↔ requestOfWord w = r :=
  ⟨fun h => h ▸ requestOfWord_wordOfRequest r, fun h => h ▸ (wordOfRequest_requestOfWord w).symm⟩

/-- A mask over the whole select code compares it as it is, and `arg` under the rest of the mask. -/
theorem and_mask_eq_wordOfRequest_iff {w m : BitVec 20} {a : Frame} {r : Request}
    (hm : requestOfWord m = { reqOp := 0xF#4, arg := a }) :
    w &&& m = wordOfRequest r ↔ (requestOfWord w).reqOp = r.reqOp ∧ (requestOfWord w).arg &&& a = r.arg := by
  obtain ⟨hop, harg⟩ := Request.mk.inj hm
  have hw : requestOfWord (w &&& m) = { reqOp := (requestOfWord w).reqOp, arg := (requestOfWord w).arg &&& a } := by
    simp only [requestOfWord, BitVec.extractLsb'_and, hop, harg, Request.mk.injEq, and_true]
    exact BitVec.and_allOnes
  rw [eq_wordOfRequest_iff, hw, Request.mk.injEq]

/-- The bits of `arg` an operation is read from: all but those R63 says are ignored. -/
def argMask (i : Instr) : Frame :=
  match i with
  | .setMirror _ => 0x0001#16
  | .setHome | .getAngle | .getTotal | .getDelta => 0x0000#16
  | _ => 0xFFFF#16

theorem requestOfWord_careMask (i : Instr) : requestOfWord (careMask i) = { reqOp := 0xF#4, arg := argMask i } := by
  cases i <;> simp only [careMask, argMask] <;> decide

theorem and_one_eq_ite (arg : Frame) : arg &&& 1#16 = if arg.getLsbD 0 then 1#16 else 0#16 := by
  rw [BitVec.and_one_eq_setWidth_ofBool_getLsbD]
  cases arg.getLsbD 0 <;> rfl

theorem reqOp_of_decode {r : Request} {i : Instr} (h : decode r = .ok i) : r.reqOp = (encode i).reqOp := by
  unfold decode at h
  split at h <;> cases h
  all_goals exact BitVec.eq_of_toNat_eq ‹_›

/-- Under its own select code, what the decoder reads of `arg` is what R63 does not call ignored. -/
theorem decode_encode_reqOp_iff (i : Instr) (arg : Frame) :
    decode { reqOp := (encode i).reqOp, arg := arg } = .ok i ↔ arg &&& argMask i = (encode i).arg := by
  cases i with
  | setMirror m =>
    have hbit : ∀ b : Bool, (if b then 1#16 else 0#16) = (if m then 1#16 else 0#16) ↔ b = m := by
      cases m <;> decide
    simp [decode, encode, argMask, and_one_eq_ite, hbit]
  | setHome | getAngle | getTotal | getDelta => exact iff_of_true rfl BitVec.and_zero
  | _ word =>
    have hall : arg &&& 0xFFFF#16 = arg := BitVec.and_allOnes
    simp [decode, encode, argMask, hall]

theorem decode_eq_ok_iff (r : Request) (i : Instr) :
    decode r = .ok i ↔ r.reqOp = (encode i).reqOp ∧ r.arg &&& argMask i = (encode i).arg := by
  constructor
  · intro h
    have hop := reqOp_of_decode h
    exact ⟨hop, (decode_encode_reqOp_iff i r.arg).mp (hop ▸ h)⟩
  · rintro ⟨hop, harg⟩
    have hd := (decode_encode_reqOp_iff i r.arg).mpr harg
    rwa [← hop] at hd

theorem encodeDecodes (i : Instr) : Laws.EncodeDecodes.Statement i := by
  cases i with
  | encRead arg => exact Laws.EncodeDecodes.encRead arg
  | encWaddr arg => exact Laws.EncodeDecodes.encWaddr arg
  | encWdata arg => exact Laws.EncodeDecodes.encWdata arg
  | decAngle word => exact Laws.EncodeDecodes.decAngle word
  | decGeneric word => exact Laws.EncodeDecodes.decGeneric word
  | trkInit word => exact Laws.EncodeDecodes.trkInit word
  | trkSample word => exact Laws.EncodeDecodes.trkSample word
  | setHome => exact Laws.EncodeDecodes.setHome
  | setMirror m => exact Laws.EncodeDecodes.setMirror m
  | getAngle => exact Laws.EncodeDecodes.getAngle
  | getTotal => exact Laws.EncodeDecodes.getTotal
  | getDelta => exact Laws.EncodeDecodes.getDelta

/-- Settles O2: the encoder's word is 20 bits wide and is read back (EncodeDecodes), through any wider number. -/
theorem decodeOfEncode : Obligations.DecodeOfEncode := fun i nbits h =>
  ⟨(encodeWord i).isLt, decodeTableWord_of_word (encodeWord i) nbits h i (encodeDecodes i).2⟩

/-- Settles O3: both sides compare the select code whole and `arg` under the operation's mask. -/
theorem decodeReadsExactlyCareBits : Obligations.DecodeReadsExactlyCareBits := fun w i =>
  (decode_eq_ok_iff (requestOfWord w) i).trans (and_mask_eq_wordOfRequest_iff (requestOfWord_careMask i)).symm

/-- `arg[15:14]` under its mask is 0 exactly for an operand that fits (R60). -/
theorem and_topBits_eq_zero_iff (arg : Frame) : arg &&& 0xC000#16 = 0#16 ↔ FitsOperand14 arg := by
  have hparts : arg.extractLsb' 14 2 ++ arg.extractLsb' 0 14 = arg := BitVec.extractLsb'_append_extractLsb'
  have hand : arg &&& (BitVec.allOnes 2 ++ 0#14) = arg.extractLsb' 14 2 ++ 0#14 := by
    conv_lhs => rw [← hparts]
    rw [BitVec.and_append, BitVec.and_allOnes, BitVec.and_zero]
  calc arg &&& 0xC000#16 = 0#16
      ↔ arg.extractLsb' 14 2 ++ 0#14 = 0#2 ++ 0#14 := iff_of_eq (congrArg (· = 0#16) hand)
    _ ↔ arg.extractLsb' 14 2 = 0#2 := BitVec.append_left_inj 0#14
    _ ↔ FitsOperand14 arg := Machine.topBits_eq_zero_iff arg
/-- The bits of `arg` a row of the operation table compares: an encoder's wide operands are outside its row (R55). -/
def rowArgMask (i : Instr) : Frame :=
  match i with
  | .encRead _ | .encWaddr _ | .encWdata _ => 0xC000#16
  | _ => 0x0000#16

/-- The row of the operation table an operation belongs to. -/
def rowOf (i : Instr) : OpRow where
  mnemonic := mnemonicOf i
  pattern := wordOfRequest { reqOp := (encode i).reqOp, arg := 0#16 }
  mask := wordOfRequest { reqOp := 0xF#4, arg := rowArgMask i }

theorem rowOf_mem_opTable (i : Instr) : rowOf i ∈ opTable := by
  cases i <;> simp only [rowOf, mnemonicOf, encode, rowArgMask] <;> decide

theorem exists_rowOf_eq {row : OpRow} (h : row ∈ opTable) : ∃ i, rowOf i = row := by
  have htable : opTable = [Instr.encRead 0, .encWaddr 0, .encWdata 0, .decAngle 0, .decGeneric 0, .trkInit 0, .trkSample 0,
      .setHome, .setMirror false, .getAngle, .getTotal, .getDelta].map rowOf := by decide
  obtain ⟨i, -, hi⟩ := List.mem_map.mp (htable ▸ h)
  exact ⟨i, hi⟩

/-- No two rows of the operation table have one mnemonic. -/
theorem opTable_mnemonic_inj : ∀ a ∈ opTable, ∀ b ∈ opTable, a.mnemonic = b.mnemonic → a = b := by
  decide

theorem matches_rowOf_iff (w : BitVec 20) (i : Instr) :
    w &&& (rowOf i).mask = (rowOf i).pattern ↔
      (requestOfWord w).reqOp = (encode i).reqOp ∧ (requestOfWord w).arg &&& rowArgMask i = 0#16 :=
  and_mask_eq_wordOfRequest_iff (requestOfWord_wordOfRequest _)

/-- A request with the select code of a row decodes to an operation of the row, well formed exactly when the row's bits of
`arg` are 0. -/
theorem exists_decode_of_reqOp {r : Request} {i : Instr} (h : r.reqOp = (encode i).reqOp) :
    ∃ j, decode r = .ok j ∧ rowOf j = rowOf i ∧ (WellFormed j ↔ r.arg &&& rowArgMask i = 0#16) := by
  obtain ⟨op, arg⟩ := r
  subst h
  have hfits : decide (FitsOperand14 arg) = true ↔ arg &&& 0xC000#16 = 0#16 :=
    decide_eq_true_iff.trans (and_topBits_eq_zero_iff arg).symm
  cases i with
  | encRead | encWaddr | encWdata => exact ⟨_, rfl, rfl, hfits⟩
  | _ => exact ⟨_, rfl, rfl, iff_of_true rfl BitVec.and_zero⟩

/-- Settles O4: a row is the row of some operation; its mask compares the select code and, for an encoder, `arg[15:14]`. -/
theorem tableRowsMatchDecoder : Obligations.TableRowsMatchDecoder := by
  intro w row hrow
  constructor
  · intro h
    obtain ⟨i, rfl⟩ := exists_rowOf_eq hrow
    obtain ⟨hop, harg⟩ := (matches_rowOf_iff w i).mp h
    obtain ⟨j, hd, hj, hw⟩ := exists_decode_of_reqOp hop
    exact ⟨j, hd, hw.mpr harg, congrArg OpRow.mnemonic hj⟩
  · rintro ⟨i, hd, hw, hm⟩
    obtain rfl := opTable_mnemonic_inj (rowOf i) (rowOf_mem_opTable i) row hrow hm
    have hop := reqOp_of_decode hd
    obtain ⟨j, hd', -, hw'⟩ := exists_decode_of_reqOp hop
    obtain rfl : i = j := Except.ok.inj (hd.symm.trans hd')
    exact (matches_rowOf_iff w i).mpr ⟨hop, hw'.mp hw⟩

/-- Settles O1: each word is decoded by evaluation. -/
theorem tableWordsDecode : Obligations.TableWordsDecode := by
  unfold Obligations.TableWordsDecode
  decide

end Sys2Proof

/-! SUPPORT. Rules over every operation, each from the single case analysis `exec_answers`: completion, refusal, the writers of
the registers, the fault request, and the invariant (R8, R56, R93, R123). -/

namespace Sys2Proof.Machine

/-- Every operation completes with a response and leaves the inputs (R56). -/
theorem exec_completes (i : Instr) (s : State) : ∃ t r, exec i s = .next t ∧ t.rsp = some r ∧ t.inputs = s.inputs := by
  cases exec_answers i s with
  | wide h => exact ⟨_, _, h, rfl, rfl⟩
  | early h => exact ⟨_, _, h, rfl, rfl⟩
  | plain r h => exact ⟨_, _, h, rfl, rfl⟩
  | discarded w r h => exact ⟨_, _, h, rfl, rfl⟩
  | initialised w hi hp h => exact ⟨_, _, h, rfl, rfl⟩
  | sampled w hi hp hs h => exact ⟨_, _, h, rfl, rfl⟩
  | homed hi hs h => exact ⟨_, _, h, rfl, rfl⟩
  | mirrored m hi h => exact ⟨_, _, h, rfl, rfl⟩

/-- No operation clears INITD (R14). -/
theorem exec_keeps_initd (i : Instr) {s : State} (hs : s.initd = true) : ∃ t, exec i s = .next t ∧ t.initd = true := by
  cases exec_answers i s with
  | wide h => exact ⟨_, h, hs⟩
  | early h => exact ⟨_, h, hs⟩
  | plain r h => exact ⟨_, h, hs⟩
  | discarded w r h => exact ⟨_, h, hs⟩
  | initialised w hi hp h => exact ⟨_, h, rfl⟩
  | sampled w hi hp _ h => exact ⟨_, h, hs⟩
  | homed hi _ h => exact ⟨_, h, hs⟩
  | mirrored m hi h => exact ⟨_, h, hs⟩

/-! ## The invariant -/

theorem State.responseSound_of_none {s : State} (h : s.rsp = none) : s.ResponseSound := by
  intro r hr
  exact absurd (h.symm.trans hr) nofun

theorem State.refuse_responseSound (s : State) (why : RefuseReason) : (s.refuse why).ResponseSound := by
  rintro _ ⟨⟩ hr
  exact absurd hr Bool.noConfusion

theorem State.respond_responseSound {s : State} {r : Response} (ha : r.accepted = false) (hi : r.turnInc = false)
    (hd : r.turnDec = false) (hf : r.faultReq = true → r.parityOk = false ∨ r.errorFlag = true) :
    (s.respond r).ResponseSound := by
  rintro _ ⟨⟩ -
  simpa [ha, hi, hd] using hf

/-- The report of a word asks for the Fault Manager only with one of the causes of R123. -/
theorem trackerReport_faultReq {w : Frame} (h : (trackerReport w).faultReq = true) :
    (trackerReport w).parityOk = false ∨ (trackerReport w).errorFlag = true :=
  (faultRequest_iff w).mp h

theorem initialisedBy_responseSound {w : Frame} (s : State) (hp : parityOk w = true) :
    (initialisedBy w s).ResponseSound := by
  rintro _ ⟨⟩ -
  exact ⟨fun _ => ⟨rfl, rfl, hp⟩, fun _ => rfl, nofun, trackerReport_faultReq⟩

theorem sampledBy_responseSound {w : Frame} {s : State} (hp : parityOk w = true) (hs : s.initd = true) :
    (sampledBy w s).ResponseSound := by
  rintro _ ⟨⟩ -
  refine ⟨fun _ => ⟨hs, rfl, hp⟩, fun _ => rfl, ?_, trackerReport_faultReq⟩
  rintro ⟨hinc, hdec⟩
  have hup := eq_of_beq hinc
  have hdown := eq_of_beq hdec
  omega

/-- Every operation keeps the invariant; of the response it starts from it needs nothing. -/
theorem exec_keeps_inv (i : Instr) {s : State} (hz : s.TurnZeroBeforeInit) : ∃ t, exec i s = .next t ∧ t.Inv := by
  cases exec_answers i s with
  | wide h => exact ⟨_, h, hz, s.refuse_responseSound _⟩
  | early h => exact ⟨_, h, hz, s.refuse_responseSound _⟩
  | plain r h _ _ hr =>
    obtain ⟨-, ha, hinc, hdec, hf⟩ := hr
    exact ⟨_, h, hz, State.respond_responseSound ha hinc hdec fun hq => absurd (hf.symm.trans hq) Bool.noConfusion⟩
  | discarded w r h _ _ _ _ hr =>
    obtain ⟨-, ha, hinc, hdec, -, hp⟩ := hr
    exact ⟨_, h, hz, State.respond_responseSound ha hinc hdec fun _ => .inl hp⟩
  | initialised w _ hp h => exact ⟨_, h, nofun, initialisedBy_responseSound s hp⟩
  | sampled w _ hp hs h =>
    exact ⟨_, h, fun hc => absurd (hs.symm.trans hc) Bool.noConfusion, sampledBy_responseSound hp hs⟩
  | homed _ _ h => exact ⟨_, h, fun _ => rfl, State.respond_responseSound (s := s) rfl rfl rfl nofun⟩
  | mirrored m _ h => exact ⟨_, h, hz, State.respond_responseSound (s := s) rfl rfl rfl nofun⟩

/-- Settles O11: a step is a reset, nothing, the refusal of a reserved code, or an operation, which keeps the invariant. -/
theorem stepKeepsInvariant : Obligations.StepKeepsInvariant := by
  rintro s t ⟨hz, -⟩ hstep
  suffices h : ∃ u, step s = .next u ∧ u.Inv by
    obtain ⟨u, hu, hinv⟩ := h
    obtain rfl : t = u := Host.Outcome.next.inj (hstep.symm.trans hu)
    exact hinv
  cases step_steps s with
  | reset hr h => exact ⟨_, h, fun _ => rfl, State.responseSound_of_none rfl⟩
  | idle hr hv h => exact ⟨_, h, hz, State.responseSound_of_none rfl⟩
  | performs i hr hv hd h => exact h ▸ exec_keeps_inv i hz
  | reserved op hr hv hd h => exact ⟨_, h, hz, s.portAdvance.refuse_responseSound _⟩

/-- Settles O12: nothing is initialised and no response is driven. -/
theorem resetHasInvariant : Obligations.ResetHasInvariant :=
  ⟨fun _ => rfl, State.responseSound_of_none rfl⟩

/-- Settles O13: without reset a step keeps INITD itself, or is an operation, and none clears it. -/
theorem onlyResetClearsInitd : Obligations.OnlyResetClearsInitd := by
  intro s hs hreset
  cases step_steps s with
  | reset hr h => exact absurd (hreset.symm.trans hr) Bool.noConfusion
  | idle hr hv h => exact ⟨_, h, hs⟩
  | performs i hr hv hd h => exact h ▸ exec_keeps_initd i hs
  | reserved op hr hv hd h => exact ⟨_, h, hs⟩

/-- Settles O10: a response stands exactly after a refusal of a reserved code and after an operation. -/
theorem everyStepAnswersNext : Obligations.EveryStepAnswersNext := by
  intro s
  cases step_steps s with
  | reset hr h => exact ⟨_, h, rfl, by simp [hr]⟩
  | idle hr hv h => exact ⟨_, h, rfl, by simp [hv]⟩
  | performs i hr hv hd h =>
    obtain ⟨t, r, ht, hrsp, hin⟩ := exec_completes i s.portAdvance
    exact ⟨t, h.trans ht, hin, by simp [hrsp, hr, hv]⟩
  | reserved op hr hv hd h => exact ⟨_, h, rfl, by simp [hr, hv]⟩

/-! ## Writers and refusals -/

/-- `s` is to `t` as the register table allows for `i` (R10 to R14): what each register that differs says of `i`. -/
def WritersNamed (i : Instr) (s t : State) : Prop :=
  (t.last ≠ s.last → ∃ w, parityOk w = true ∧ (i = .trkInit w ∨ i = .trkSample w)) ∧
  (t.turn ≠ s.turn → i = .setHome ∨ ∃ w, parityOk w = true ∧
    (i = .trkInit w ∨ (i = .trkSample w ∧ (t.turn = s.turn + 1 ∨ t.turn = s.turn - 1)))) ∧
  (t.home ≠ s.home → i = .setHome ∨ ∃ w, parityOk w = true ∧ i = .trkInit w) ∧
  (t.mirror ≠ s.mirror → ∃ m, i = .setMirror m) ∧
  (t.initd ≠ s.initd → s.initd = false ∧ t.initd = true ∧ ∃ w, parityOk w = true ∧ i = .trkInit w)

theorem writersNamed_of_keeps {i : Instr} {s t : State} (h : KeepsRegisters s t) : WritersNamed i s t := by
  obtain ⟨hl, ht, hh, hm, hi⟩ := h
  exact ⟨fun hne => absurd hl hne, fun hne => absurd ht hne, fun hne => absurd hh hne, fun hne => absurd hm hne,
    fun hne => absurd hi hne⟩

theorem initialisedBy_writersNamed {w : Frame} (s : State) (hp : parityOk w = true) :
    WritersNamed (.trkInit w) s (initialisedBy w s) :=
  ⟨fun _ => ⟨w, hp, .inl rfl⟩, fun _ => .inr ⟨w, hp, .inl rfl⟩, fun _ => .inr ⟨w, hp, rfl⟩, fun hne => absurd rfl hne,
    fun hne => ⟨Bool.eq_false_of_not_eq_true (Ne.symm hne), rfl, w, hp, rfl⟩⟩

theorem sampledBy_writersNamed {w : Frame} (s : State) (hp : parityOk w = true) :
    WritersNamed (.trkSample w) s (sampledBy w s) := by
  refine ⟨fun _ => ⟨w, hp, .inr rfl⟩, fun hne => .inr ⟨w, hp, .inr ⟨rfl, ?_⟩⟩, fun hne => absurd rfl hne,
    fun hne => absurd rfl hne, fun hne => absurd rfl hne⟩
  rw [sampledBy_turn] at hne ⊢
  have hwrap := wrap_cases s.last (sampledAngle w s.mirror)
  omega

/-- Settles O14: an operation keeps every register, or is one of the four that write. -/
theorem registersHaveNamedWriters : Obligations.RegistersHaveNamedWriters := by
  intro i s
  suffices h : ∃ t, exec i s = .next t ∧ WritersNamed i s t from h
  have hkept : KeepsRegisters s s := ⟨rfl, rfl, rfl, rfl, rfl⟩
  cases exec_answers i s with
  | wide h => exact ⟨_, h, writersNamed_of_keeps hkept⟩
  | early h => exact ⟨_, h, writersNamed_of_keeps hkept⟩
  | plain r h => exact ⟨_, h, writersNamed_of_keeps hkept⟩
  | discarded w r h => exact ⟨_, h, writersNamed_of_keeps hkept⟩
  | initialised w hi hp h => exact ⟨_, h, hi ▸ initialisedBy_writersNamed s hp⟩
  | sampled w hi hp hs h => exact ⟨_, h, hi ▸ sampledBy_writersNamed s hp⟩
  | homed hi hs h =>
    exact ⟨_, h, fun hne => absurd rfl hne, fun _ => .inl hi, fun _ => .inl hi, fun hne => absurd rfl hne,
      fun hne => absurd rfl hne⟩
  | mirrored m hi h =>
    exact ⟨_, h, fun hne => absurd rfl hne, fun hne => absurd rfl hne, fun hne => absurd rfl hne, fun _ => ⟨m, hi⟩,
      fun hne => absurd rfl hne⟩

/-- Settles O15: the two refusals of `exec_answers` carry their conditions, and every other answer their absence. -/
theorem refusalsAndTheirReasons : Obligations.RefusalsAndTheirReasons := by
  intro i s
  have hcompletes : WellFormed i → (needsInit i = true → s.initd = true) →
      none = if ¬WellFormed i then some RefuseReason.operandRange
        else if needsInit i = true ∧ s.initd = false then some .notInitialised else none := by
    intro hw hn
    rw [if_neg (not_not_intro hw), if_neg]
    rintro ⟨hneeds, hclear⟩
    exact absurd ((hn hneeds).symm.trans hclear) Bool.noConfusion
  cases exec_answers i s with
  | wide h hw => exact ⟨_, _, h, rfl, (if_pos hw).symm⟩
  | early h hw hn hi => exact ⟨_, _, h, rfl, by rw [if_neg (not_not_intro hw), if_pos ⟨hn, hi⟩]; rfl⟩
  | plain r h hw hn hr =>
    obtain ⟨hnone, -⟩ := hr
    exact ⟨_, _, h, rfl, hnone.trans (hcompletes hw hn)⟩
  | discarded w r h hw hn hg hp hr =>
    obtain ⟨hnone, -⟩ := hr
    exact ⟨_, _, h, rfl, hnone.trans (hcompletes hw hn)⟩
  | initialised w hi hp h => exact ⟨_, _, h, rfl, hcompletes (hi ▸ rfl) (hi ▸ nofun)⟩
  | sampled w hi hp hs h => exact ⟨_, _, h, rfl, hcompletes (hi ▸ rfl) fun _ => hs⟩
  | homed hi hs h => exact ⟨_, _, h, rfl, hcompletes (hi ▸ rfl) fun _ => hs⟩
  | mirrored m hi h => exact ⟨_, _, h, rfl, hcompletes (hi ▸ rfl) (hi ▸ nofun)⟩

/-- An operation gives the tracker at most one word. -/
theorem givesWord_unique {i : Instr} {w v : Frame} (hw : GivesWord i w) (hv : GivesWord i v) : w = v := by
  rcases hw with rfl | rfl <;> simpa [GivesWord] using hv

/-- Settles O16: what writes a register is an accepted word, SET_HOME or SET_MIRROR, none of them refused. -/
theorem refusedOrDiscardedChangesNothing : Obligations.RefusedOrDiscardedChangesNothing := by
  intro i s
  have hkept : KeepsRegisters s s := ⟨rfl, rfl, rfl, rfl, rfl⟩
  have hcomplete : ∀ {r : Response} {t : State}, r.refused = false → (∀ v, GivesWord i v → parityOk v = true) →
      (r.refused = true ∨ ∃ v, parityOk v = false ∧ GivesWord i v) → KeepsRegisters s t := by
    rintro r t hr hgood (hbad | ⟨v, hv, hg⟩)
    · exact absurd (hr.symm.trans hbad) Bool.noConfusion
    · exact absurd ((hgood v hg).symm.trans hv) Bool.noConfusion
  cases exec_answers i s with
  | wide h => exact ⟨_, _, h, rfl, fun _ => hkept⟩
  | early h => exact ⟨_, _, h, rfl, fun _ => hkept⟩
  | plain r h => exact ⟨_, _, h, rfl, fun _ => hkept⟩
  | discarded w r h => exact ⟨_, _, h, rfl, fun _ => hkept⟩
  | initialised w hi hp h => exact ⟨_, _, h, rfl, hcomplete rfl fun v hv => givesWord_unique (.inl hi) hv ▸ hp⟩
  | sampled w hi hp hs h => exact ⟨_, _, h, rfl, hcomplete rfl fun v hv => givesWord_unique (.inr hi) hv ▸ hp⟩
  | homed hi hs h => exact ⟨_, _, h, rfl, hcomplete rfl (by simp [hi, GivesWord])⟩
  | mirrored m hi h => exact ⟨_, _, h, rfl, hcomplete rfl (by simp [hi, GivesWord])⟩

/-! ## The fault request -/

/-- The causes of a fault request, counted in ones (R70, R123). -/
theorem faultRequest_iff_odd (w : Frame) : faultRequest w = true ↔ popcount w % 2 = 1 ∨ w.getLsbD 1 = true := by
  rw [faultRequest_iff, parityOk_eq_decide, decide_eq_false_iff_not, Nat.mod_two_not_eq_zero]

/-- Settles O17: an operation that gives a word to the tracker drives FAULT_REQUEST of it, any other drives 0. -/
theorem faultRequestRule : Obligations.FaultRequestRule := by
  intro i s
  have hword : ∀ {w : Frame} {r : Response}, GivesWord i w → r.faultReq = faultRequest w →
      (r.faultReq = true ↔ ∃ v, GivesWord i v ∧ (popcount v % 2 = 1 ∨ v.getLsbD 1 = true)) := by
    intro w r hg hr
    rw [hr, faultRequest_iff_odd]
    refine ⟨fun h => ⟨w, hg, h⟩, ?_⟩
    rintro ⟨v, hv, h⟩
    exact (givesWord_unique hg hv).symm ▸ h
  have hnone : ∀ {r : Response}, (∀ w, ¬GivesWord i w) → r.faultReq = false →
      (r.faultReq = true ↔ ∃ v, GivesWord i v ∧ (popcount v % 2 = 1 ∨ v.getLsbD 1 = true)) := by
    intro r hg hr
    refine iff_of_false (by simp [hr]) ?_
    rintro ⟨v, hv, -⟩
    exact hg v hv
  cases exec_answers i s with
  | wide h => exact ⟨_, _, h, rfl, fun hr => absurd hr Bool.noConfusion⟩
  | early h => exact ⟨_, _, h, rfl, fun hr => absurd hr Bool.noConfusion⟩
  | plain r h hw hn hr hg =>
    obtain ⟨-, -, -, -, hf⟩ := hr
    exact ⟨_, _, h, rfl, fun _ => hnone hg hf⟩
  | discarded w r h hw hn hg hp hr =>
    obtain ⟨-, -, -, -, hf, -⟩ := hr
    exact ⟨_, _, h, rfl, fun _ => hword hg (hf.trans (faultRequest_of_bad hp).symm)⟩
  | initialised w hi hp h => exact ⟨_, _, h, rfl, fun _ => hword (.inl hi) rfl⟩
  | sampled w hi hp hs h => exact ⟨_, _, h, rfl, fun _ => hword (.inr hi) rfl⟩
  | homed hi hs h => exact ⟨_, _, h, rfl, fun _ => hnone (by simp [hi, GivesWord]) rfl⟩
  | mirrored m hi h => exact ⟨_, _, h, rfl, fun _ => hnone (by simp [hi, GivesWord]) rfl⟩

/-! ## HOME is read by GET_DELTA alone -/

/-- Both operations answer, with the same response and the same registers but for HOME. -/
def SameButHome (x y : Result) : Prop :=
  ∃ t u, x = .next t ∧ y = .next u ∧ u.rsp = t.rsp ∧
    u.last = t.last ∧ u.turn = t.turn ∧ u.mirror = t.mirror ∧ u.initd = t.initd

theorem answer_sameButHome (s : State) (h : Angle) (r : Response) :
    SameButHome (answer s r) (answer { s with home := h } r) :=
  ⟨_, _, rfl, rfl, rfl, rfl, rfl, rfl, rfl⟩

theorem turnAway_sameButHome (s : State) (h : Angle) (why : RefuseReason) :
    SameButHome (turnAway s why) (turnAway { s with home := h } why) :=
  ⟨_, _, rfl, rfl, rfl, rfl, rfl, rfl, rfl⟩

theorem encodeFrame_sameButHome (body : Operand14 → Frame) (arg : Frame) (s : State) (h : Angle) :
    SameButHome (encodeFrame body arg s) (encodeFrame body arg { s with home := h }) := by
  unfold encodeFrame
  split
  · exact answer_sameButHome s h _
  · exact turnAway_sameButHome s h _

theorem ifInitialised_sameButHome {s : State} {h : Angle} {x y : Result} (hxy : SameButHome x y) :
    SameButHome (ifInitialised s x) (ifInitialised { s with home := h } y) := by
  unfold ifInitialised
  split
  · exact hxy
  · exact turnAway_sameButHome s h _

theorem execTrkInit_sameButHome (w : Frame) (s : State) (h : Angle) :
    SameButHome (execTrkInit w s) (execTrkInit w { s with home := h }) := by
  unfold execTrkInit
  split
  · exact ⟨_, _, rfl, rfl, rfl, rfl, rfl, rfl, rfl⟩
  · exact answer_sameButHome s h _

theorem execTrkSample_sameButHome (w : Frame) (s : State) (h : Angle) :
    SameButHome (execTrkSample w s) (execTrkSample w { s with home := h }) := by
  refine ifInitialised_sameButHome ?_
  split
  · exact ⟨_, _, rfl, rfl, rfl, rfl, rfl, rfl, rfl⟩
  · exact answer_sameButHome s h _

/-- Settles O18: operation by operation; each is built of parts that do not read HOME. -/
theorem onlyGetDeltaReadsHome : Obligations.OnlyGetDeltaReadsHome := by
  intro i s h hi
  suffices hsame : SameButHome (exec i s) (exec i { s with home := h }) from hsame
  cases i with
  | encRead arg => exact encodeFrame_sameButHome _ arg s h
  | encWaddr arg => exact encodeFrame_sameButHome _ arg s h
  | encWdata arg => exact encodeFrame_sameButHome _ arg s h
  | decAngle w => exact answer_sameButHome s h _
  | decGeneric w => exact answer_sameButHome s h _
  | trkInit w => exact execTrkInit_sameButHome w s h
  | trkSample w => exact execTrkSample_sameButHome w s h
  | setHome => exact ifInitialised_sameButHome ⟨_, _, rfl, rfl, rfl, rfl, rfl, rfl, rfl⟩
  | setMirror m => exact ⟨_, _, rfl, rfl, rfl, rfl, rfl, rfl, rfl⟩
  | getAngle => exact ifInitialised_sameButHome (answer_sameButHome s h _)
  | getTotal => exact ifInitialised_sameButHome (answer_sameButHome s h _)
  | getDelta => exact absurd rfl hi

/-! ## Runs of requests -/

theorem performRequest_completes (r : Request) (s : State) : ∃ t, performRequest r s = .next t := by
  cases hd : decode r with
  | ok i =>
    obtain ⟨t, -, ht, -, -⟩ := exec_completes i s
    exact ⟨t, (performRequest_of_decode s hd).trans ht⟩
  | error e =>
    obtain ⟨op⟩ := e
    exact ⟨_, by simp only [performRequest, hd]; rfl⟩

theorem runRequests_completes (rs : List Request) (s : State) : ∃ t, runRequests rs s = .next t := by
  induction rs generalizing s with
  | nil => exact ⟨s, rfl⟩
  | cons r rs ih =>
    obtain ⟨t, ht⟩ := performRequest_completes r s
    simpa only [runRequests, ht] using ih t

/-- After initialisation a well-formed operation is not refused, and INITD stays set. -/
theorem exec_goesRight {i : Instr} {s : State} (hw : WellFormed i) (hs : s.initd = true) :
    ∃ t, exec i s = .next t ∧ (t.rsp.getD {}).refused = false ∧ t.initd = true := by
  obtain ⟨t, r, ht, hr, hwhy⟩ := refusalsAndTheirReasons i s
  obtain ⟨u, hu, hinitd⟩ := exec_keeps_initd i hs
  obtain rfl : t = u := Host.Outcome.next.inj (ht.symm.trans hu)
  rw [if_neg (not_not_intro hw), if_neg (by simp [hs])] at hwhy
  exact ⟨t, ht, by simp [hr, Response.refused, hwhy], hinitd⟩

theorem wentWrong_eq_false {rs : List Request} {s : State} (hs : s.initd = true)
    (hrs : ∀ r ∈ rs, ∃ i, decode r = .ok i ∧ WellFormed i) : wentWrong rs s = false := by
  induction rs generalizing s with
  | nil => rfl
  | cons r rs ih =>
    obtain ⟨⟨i, hd, hw⟩, hrest⟩ := List.forall_mem_cons.mp hrs
    obtain ⟨t, ht, hright, hinitd⟩ := exec_goesRight hw hs
    simp [wentWrong, performRequest_of_decode s hd, ht, hright, ih hinitd hrest]

/-- Settles O19: by induction on the requests, from any state and from any state with INITD set. -/
theorem runsCompleteAndGoRight : Obligations.RunsCompleteAndGoRight :=
  fun rs s => ⟨runRequests_completes rs s, wentWrong_eq_false⟩

end Sys2Proof.Machine

/-! SUPPORT. One step at the port (R55, R61, R140). -/

namespace Sys2Proof.Machine

theorem step_of_request {s : State} {i : Instr} (hr : s.portNow.reset = false) (hv : s.portNow.reqValid = true)
    (hd : decode s.portNow.req = .ok i) : step s = exec i s.portAdvance := by
  rw [step_eq_portStep, portStep, if_neg (by simp [hr]), if_pos hv, performRequest_of_decode _ hd]

/-- A select code above the table's is reserved (R61). -/
theorem decode_reserved {r : Request} (h : 12 ≤ r.reqOp.toNat) : decode r = .error (.reservedOp r.reqOp) := by
  unfold decode
  split
  on_goal 13 => rfl
  all_goals omega

/-- A number that decodes to an operation places a request that does. -/
theorem withFetchWord_of_decode {s : State} {nbits w : Nat} {i : Instr} (h : decodeTableWord nbits w = some i) :
    ∃ r, s.withFetchWord nbits w = s.present r ∧ decode r = .ok i := by
  unfold decodeTableWord at h
  unfold State.withFetchWord placeTableWord
  cases hr : tableRequest nbits w with
  | none => simp [hr] at h
  | some r =>
    refine ⟨r, rfl, ?_⟩
    cases hd : decode r with
    | ok j => simpa [hr, hd] using h
    | error e => simp [hr, hd] at h

/-- Settles O5: the port of a presented request carries it, whoever placed it there. -/
theorem stepRunsDecodedOperation : Obligations.StepRunsDecodedOperation := by
  refine ⟨fun s p rest i hin hr hv hd => ?_, fun s nbits w i h => ?_⟩
  · have hport : s.portNow = p := by rw [State.portNow, hin]; rfl
    have hnext : s.portAdvance = { s with inputs := rest } := by rw [State.portAdvance, hin]; rfl
    subst hport
    exact hnext ▸ step_of_request hr hv hd
  · obtain ⟨r, hpresent, hd⟩ := withFetchWord_of_decode (s := s) h
    rw [hpresent]
    exact step_of_request rfl rfl hd

/-- Settles O6: of the cases of a step only the idle one presents nothing. -/
theorem stepWithoutRequestKeepsRegisters : Obligations.StepWithoutRequestKeepsRegisters := by
  intro s hr hv
  rw [step_eq_portStep, portStep, if_neg (by simp [hr]), if_neg (by simp [hv])]
  rfl

/-- Settles O7: a reserved code decodes to no operation, and the request is turned away. -/
theorem stepRefusesReservedCodes : Obligations.StepRefusesReservedCodes := by
  intro s hr hv hop
  have hstep : step s = turnAway s.portAdvance .reservedOp := by
    rw [step_eq_portStep, portStep, if_neg (by simp [hr]), if_pos hv, performRequest, decode_reserved hop]
  exact ⟨_, _, hstep, ⟨rfl, rfl, rfl, rfl, rfl⟩, rfl, rfl, rfl, rfl⟩

/-- Settles O8: reset comes before any request. -/
theorem resetInputResetsTracker : Obligations.ResetInputResetsTracker := by
  intro s hr
  have hstep : step s = .next s.portAdvance.applyReset := by rw [step_eq_portStep, portStep, if_pos hr]
  exact ⟨_, hstep, rfl, rfl, rfl, rfl, rfl⟩

/-- Settles O9: the fields of the reset state. -/
theorem resetStateValues : Obligations.ResetStateValues := ⟨rfl, rfl, rfl, rfl⟩

end Sys2Proof.Machine

/-! SUPPORT. The codec: corruption of a word, the frames the encoders build for any parameters, and what the decoders read
(R70 to R82). -/

namespace Sys2Proof.Machine

/-! ## Corruption -/

theorem parityOk_xor (w d : Frame) : parityOk (w ^^^ d) = (parityOk w).xor (xorReduce d) := by
  simp [parityOk, xorReduce_xor]

theorem parityOk_xor_of_odd (w : Frame) {d : Frame} (h : popcount d % 2 = 1) : parityOk (w ^^^ d) = !parityOk w := by
  rw [parityOk_xor, xorReduce_eq_decide, decide_eq_true h, Bool.xor_true]

theorem parityOk_xor_of_even (w : Frame) {d : Frame} (h : popcount d % 2 = 0) : parityOk (w ^^^ d) = parityOk w := by
  rw [parityOk_xor, xorReduce_eq_decide, decide_eq_false (by omega), Bool.xor_false]

/-- One changed bit is an odd number of them. -/
theorem popcount_twoPow_odd {j : Nat} (h : j < 16) : popcount (BitVec.twoPow 16 j) % 2 = 1 := by
  have hall : ∀ j : Fin 16, popcount (BitVec.twoPow 16 j) % 2 = 1 := by decide
  exact hall ⟨j, h⟩

/-- Settles O21: parity is a homomorphism into exclusive-or, and each single bit turns it. -/
theorem parityDetectsOddCorruption : Obligations.ParityDetectsOddCorruption := by
  refine ⟨fun w d => parityOk_xor_of_odd w, fun w d => parityOk_xor_of_even w, fun w j hj hw => ?_,
    fun w j k hj hk _ hw => ?_⟩
  · rw [parityOk_xor_of_odd w (popcount_twoPow_odd hj), hw, Bool.not_true]
  · rw [parityOk_xor_of_odd _ (popcount_twoPow_odd hk), parityOk_xor_of_odd w (popcount_twoPow_odd hj), hw,
      Bool.not_not]

/-! ## Frames -/

theorem parityOk_iff_even (w : Frame) : parityOk w = true ↔ popcount w % 2 = 0 := by
  rw [parityOk_eq_decide, decide_eq_true_iff]

/-- A frame of even parity is fixed by its upper fifteen bits. -/
theorem setPar_eq_iff {b f : Frame} (hb : b.getLsbD 0 = false) :
    setPar b = f ↔ f.extractLsb' 1 15 = b.extractLsb' 1 15 ∧ popcount f % 2 = 0 := by
  rw [← parityOk_iff_even]
  constructor
  · rintro rfl
    exact ⟨setPar_extract_upper b, by rw [parityOk, xorReduce_setPar b hb, Bool.not_false]⟩
  · rintro ⟨hupper, hparity⟩
    apply BitVec.eq_of_getLsbD_eq
    intro k hk
    cases k with
    | zero =>
      have hlow : f.getLsbD 0 = par15 f :=
        not_not.mp fun hne => absurd (hparity.symm.trans ((parityOk_eq_false_iff f).mpr hne)) Bool.noConfusion
      rw [setPar_low b hb, hlow, par15, par15, hupper]
    | succ k =>
      have hbit := congrArg (·.getLsbD k) hupper
      rw [setPar_getLsbD_of_pos b k.succ_pos]
      simpa [Nat.add_comm 1 k, Nat.lt_of_succ_lt_succ hk] using hbit.symm

theorem append_eq_append_iff {v w : Nat} {a b : BitVec v} {c d : BitVec w} : a ++ c = b ++ d ↔ a = b ∧ c = d := by
  constructor
  · intro h
    have hleft := congrArg (BitVec.extractLsb' w v) h
    have hright := congrArg (BitVec.extractLsb' 0 w) h
    rw [BitVec.extractLsb'_append_eq_left, BitVec.extractLsb'_append_eq_left] at hleft
    rw [BitVec.extractLsb'_append_eq_right, BitVec.extractLsb'_append_eq_right] at hright
    exact ⟨hleft, hright⟩
  · rintro ⟨rfl, rfl⟩
    rfl

theorem cmdBody_upper (rw : BitVec 1) (a : Operand14) : (cmdBody rw a).extractLsb' 1 15 = rw ++ a := by
  apply BitVec.eq_of_getLsbD_eq
  intro k hk
  rw [BitVec.getLsbD_append]
  by_cases h : k < 14
  · simp [cmdBody, h, hk, show 1 + k < 15 by omega, show 1 + k < 16 by omega]
  · obtain rfl : k = 14 := by omega
    simp [cmdBody]

theorem wdataBody_upper (dc : BitVec 1) (x : Operand14) : (wdataBody dc x).extractLsb' 1 15 = x ++ dc := by
  apply BitVec.eq_of_getLsbD_eq
  intro k hk
  rw [BitVec.getLsbD_append]
  cases k with
  | zero => simp [wdataBody]
  | succ k =>
    simp [wdataBody, show 1 + (k + 1) = k + 2 by omega, show k < 14 by omega, show k + 2 < 16 by omega,
      hk]

/-- The command frame is the frame of even parity with the R/W bit in bit 15 and the address in bits 14:1 (R51). -/
theorem setPar_cmdBody_eq_iff {rw : BitVec 1} {a : Operand14} {f : Frame} :
    setPar (cmdBody rw a) = f ↔ f.extractLsb' 15 1 = rw ∧ f.extractLsb' 1 14 = a ∧ popcount f % 2 = 0 := by
  have hsplit : f.extractLsb' 1 15 = f.extractLsb' 15 1 ++ f.extractLsb' 1 14 :=
    (BitVec.extractLsb'_append_extractLsb'_eq_extractLsb' (len₁ := 14) (len₂ := 1) rfl).symm
  rw [setPar_eq_iff (cmdBody_low rw a), cmdBody_upper, hsplit, append_eq_append_iff, and_assoc]

/-- The write-data frame is the frame of even parity with the datum in bits 15:2 and the don't-care slot in bit 1 (R52). -/
theorem setPar_wdataBody_eq_iff {dc : BitVec 1} {x : Operand14} {f : Frame} :
    setPar (wdataBody dc x) = f ↔ f.extractLsb' 1 1 = dc ∧ f.extractLsb' 2 14 = x ∧ popcount f % 2 = 0 := by
  have hsplit : f.extractLsb' 1 15 = f.extractLsb' 2 14 ++ f.extractLsb' 1 1 :=
    (BitVec.extractLsb'_append_extractLsb'_eq_extractLsb' (len₁ := 1) (len₂ := 14) rfl).symm
  rw [setPar_eq_iff (wdataBody_low dc x), wdataBody_upper, hsplit, append_eq_append_iff, and_assoc, and_left_comm]

/-- Settles O28: a frame has even parity, whatever its parameter bit. -/
theorem frameParityHoldsForEitherPolarity : Obligations.FrameParityHoldsForEitherPolarity := by
  intro rw dc x
  obtain ⟨-, -, hcmd⟩ := setPar_cmdBody_eq_iff.mp (rfl : setPar (cmdBody rw x) = _)
  obtain ⟨-, -, hdata⟩ := setPar_wdataBody_eq_iff.mp (rfl : setPar (wdataBody dc x) = _)
  exact ⟨hcmd, hdata⟩

/-! ## Encoders -/

theorem encodeFrame_of_topBits (body : Operand14 → Frame) {arg : Frame} (s : State) (h : arg.extractLsb' 14 2 = 0#2) :
    encodeFrame body arg s = .next { s with rsp := some { val := ((setPar (body (operand14 arg))).toNat : Int) } } :=
  encodeFrame_inRange body arg s ((operandInRange_iff arg).mpr h)

/-- Settles O58: each encoder drives the frame of its body. -/
theorem encodersFollowTheirParameters : Obligations.EncodersFollowTheirParameters := by
  intro p s arg h
  exact ⟨⟨_, encodeFrame_of_topBits _ s h, setPar_cmdBody_eq_iff.mp rfl⟩,
    ⟨_, encodeFrame_of_topBits _ s h, setPar_cmdBody_eq_iff.mp rfl⟩,
    ⟨_, encodeFrame_of_topBits _ s h, setPar_wdataBody_eq_iff.mp rfl⟩⟩

theorem extractLsb'_one_eq_iff (f : Frame) (k : Nat) (b : Bool) :
    f.extractLsb' k 1 = BitVec.ofBool b ↔ f.getLsbD k = b := by
  rw [BitVec.eq_of_getLsbD_eq_iff]
  simp

/-- Settles O22: `encodersFollowTheirParameters` at RW_READ = 1. -/
theorem encReadDrivesReadCommand : Obligations.EncReadDrivesReadCommand := by
  intro s arg h
  obtain ⟨⟨f, hexec, hrw, haddr, hparity⟩, -, -⟩ := encodersFollowTheirParameters Config.params s arg h
  exact ⟨f, hexec, (extractLsb'_one_eq_iff f 15 true).mp hrw, haddr, hparity⟩

/-- Settles O23: `encodersFollowTheirParameters` at RW_WRITE = 0. -/
theorem encWaddrDrivesWriteCommand : Obligations.EncWaddrDrivesWriteCommand := by
  intro s arg h
  obtain ⟨-, ⟨f, hexec, hrw, haddr, hparity⟩, -⟩ := encodersFollowTheirParameters Config.params s arg h
  exact ⟨f, hexec, (extractLsb'_one_eq_iff f 15 false).mp hrw, haddr, hparity⟩

/-- Settles O24: `encodersFollowTheirParameters` at WDATA_DC = 0. -/
theorem encWdataDrivesDataFrame : Obligations.EncWdataDrivesDataFrame := by
  intro s arg h
  obtain ⟨-, -, f, hexec, hdc, hdata, hparity⟩ := encodersFollowTheirParameters Config.params s arg h
  exact ⟨f, hexec, hdata, (extractLsb'_one_eq_iff f 1 false).mp hdc, hparity⟩

/-- Settles O25: the three encoders share their refusal. -/
theorem encodersRefuseWideOperands : Obligations.EncodersRefuseWideOperands := by
  intro s arg i harg hi
  have hrange : operandInRange arg = false := by
    rwa [← Bool.not_eq_true, operandInRange_iff]
  have hexec : exec i s = turnAway s .operandRange := by
    rcases hi with rfl | rfl | rfl <;> exact encodeFrame_outOfRange _ arg s hrange
  exact ⟨_, _, hexec, ⟨rfl, rfl, rfl, rfl, rfl⟩, rfl, rfl, rfl, rfl⟩

/-- Settles O26: the read command with the two bits turned has the fields and the parity of the write command. -/
theorem commandFramesDifferInTwoBits : Obligations.CommandFramesDifferInTwoBits := by
  intro s arg h
  refine ⟨_, _, encodeFrame_of_topBits _ s h, encodeFrame_of_topBits _ s h, ?_⟩
  obtain ⟨hrw, haddr, hparity⟩ := setPar_cmdBody_eq_iff.mp (rfl : setPar (cmdBody 1#1 (operand14 arg)) = _)
  have hturned : setPar (cmdBody 0#1 (operand14 arg)) = setPar (cmdBody 1#1 (operand14 arg)) ^^^ 0x8001#16 := by
    rw [setPar_cmdBody_eq_iff, BitVec.extractLsb'_xor, BitVec.extractLsb'_xor, hrw, haddr, ← parityOk_iff_even,
      parityOk_xor_of_even _ (by decide), parityOk_iff_even]
    exact ⟨by decide, BitVec.xor_zero, hparity⟩
  calc setPar (cmdBody 0#1 (operand14 arg)) ^^^ setPar (cmdBody 1#1 (operand14 arg))
      = 0x8001#16 ^^^ setPar (cmdBody 1#1 (operand14 arg)) ^^^ setPar (cmdBody 1#1 (operand14 arg)) := by
        rw [hturned, BitVec.xor_comm _ 0x8001#16]
    _ = 0x8001#16 := by rw [BitVec.xor_assoc, BitVec.xor_self, BitVec.xor_zero]

/-- Two answers with a frame in `val` are the same only for the same frame. -/
theorem answer_frame_inj {s : State} {f g : Frame}
    (h : answer s { val := (f.toNat : Int) } = answer s { val := (g.toNat : Int) }) : f = g := by
  exact BitVec.eq_of_toNat_eq (by simpa [answer, State.respond] using h)

/-- The frames an encoder can build are those of its bodies. -/
theorem encodeFrame_image (body : Operand14 → Frame) (s : State) (f : Frame) :
    (∃ arg : Frame, decide (FitsOperand14 arg) = true ∧ encodeFrame body arg s = answer s { val := (f.toNat : Int) }) ↔
      ∃ x, setPar (body x) = f := by
  constructor
  · rintro ⟨arg, hw, h⟩
    rw [encodeFrame_inRange body arg s ((operandInRange_eq_wellFormed arg).trans hw)] at h
    exact ⟨_, answer_frame_inj h⟩
  · rintro ⟨x, rfl⟩
    refine ⟨argOf x, (operandInRange_eq_wellFormed (argOf x)).symm.trans (operandInRange_argOf x), ?_⟩
    rw [encodeFrame_inRange _ _ s (operandInRange_argOf x), operand14_argOf]

theorem exists_setPar_cmdBody_iff (rw : Bool) (f : Frame) :
    (∃ a, setPar (cmdBody (BitVec.ofBool rw) a) = f) ↔ f.getLsbD 15 = rw ∧ popcount f % 2 = 0 := by
  simp only [setPar_cmdBody_eq_iff, extractLsb'_one_eq_iff, exists_and_left, exists_eq_left']

theorem exists_setPar_wdataBody_iff (dc : Bool) (f : Frame) :
    (∃ x, setPar (wdataBody (BitVec.ofBool dc) x) = f) ↔ f.getLsbD 1 = dc ∧ popcount f % 2 = 0 := by
  simp only [setPar_wdataBody_eq_iff, extractLsb'_one_eq_iff, exists_and_left, exists_eq_left']

/-- Settles O27: in each frame the operand's field may be any value. -/
theorem encoderImages : Obligations.EncoderImages := fun s f =>
  ⟨(encodeFrame_image (cmdBody 1#1) s f).trans (exists_setPar_cmdBody_iff true f),
    (encodeFrame_image (cmdBody 0#1) s f).trans (exists_setPar_cmdBody_iff false f),
    (encodeFrame_image (wdataBody 0#1) s f).trans (exists_setPar_wdataBody_iff false f)⟩

/-! ## Decoders -/

theorem angleResponse_eq (w : Frame) :
    angleResponse w = {
      val := ((w.toNat / 4 % 1024 : Nat) : Int)
      parityOk := decide (popcount w % 2 = 0)
      errorFlag := decide (w.toNat / 2 % 2 = 1)
      alarm := BitVec.ofNat 2 (w.toNat / 4096) } := by
  simp only [angleResponse, angleReport, angleField_toNat, parityOk_eq_decide, errorBit_eq_decide, alarmField_eq_ofNat]

theorem genericResponse_eq (w : Frame) :
    genericResponse w = {
      val := ((w.toNat / 4 % 4096 : Nat) : Int)
      parityOk := decide (popcount w % 2 = 0)
      errorFlag := decide (w.toNat / 2 % 2 = 1) } := by
  simp only [genericResponse, genericField_toNat, parityOk_eq_decide, errorBit_eq_decide]

/-- Settles O29: the response of the angle mode, in the arithmetic of the word's number. -/
theorem decAngleDrivesFields : Obligations.DecAngleDrivesFields := fun s w =>
  (exec_decAngle w s).trans (congrArg (answer s) (angleResponse_eq w))

/-- Settles O30: the response of the generic mode, in the arithmetic of the word's number. -/
theorem decGenericDrivesFields : Obligations.DecGenericDrivesFields := fun s w =>
  (exec_decGeneric w s).trans (congrArg (answer s) (genericResponse_eq w))

theorem genericField_eq_alarm_angle (w : Frame) :
    (genericField w).toNat = (alarmField w).toNat * 1024 + (angleField w).toNat := by
  rw [genericField_toNat, angleField_toNat, alarmField_eq_ofNat, BitVec.toNat_ofNat]
  omega

/-- Settles O31: bits 13:2 are bits 13:12 over bits 11:2. -/
theorem genericPayloadIsAlarmOverAngle : Obligations.GenericPayloadIsAlarmOverAngle := by
  intro s w
  refine ⟨_, _, _, _, exec_decAngle w s, exec_decGeneric w s, rfl, rfl, ?_, rfl, rfl⟩
  simp [genericResponse, angleResponse, angleReport, genericField_eq_alarm_angle]

/-- Settles O32: above its two lowest bits the write-data frame is the datum. -/
theorem writeDataRoundTrip : Obligations.WriteDataRoundTrip := by
  intro s arg harg
  obtain ⟨f, hexec, hdata, hdc, hparity⟩ := encWdataDrivesDataFrame s arg ((topBits_eq_zero_iff arg).mpr harg)
  have hnum : f.toNat / 4 = arg.toNat := by
    have h := congrArg BitVec.toNat hdata
    have hf := f.isLt
    simp only [BitVec.extractLsb'_toNat, Nat.shiftRight_eq_div_pow] at h
    omega
  have herror : errorBit f = false := hdc
  rw [errorBit_eq_decide] at herror
  have halarm : f.toNat / 4096 = arg.toNat / 1024 := by omega
  refine ⟨f, hexec, ?_, ?_⟩
  · rw [decGenericDrivesFields, hnum, herror, decide_eq_true hparity]
  · rw [decAngleDrivesFields, hnum, herror, halarm, decide_eq_true hparity]

/-- Settles O33: what an encoder or a decoder answers is a function of its operand. -/
theorem codecIsStateless : Obligations.CodecIsStateless := by
  have hencoder : ∀ (body : Operand14 → Frame) (arg : Frame), decide (FitsOperand14 arg) = true →
      ∃ r : Response, ∀ s : State, encodeFrame body arg s = .next { s with rsp := some r } := fun body arg hw =>
    ⟨_, fun s => encodeFrame_inRange body arg s ((operandInRange_eq_wellFormed arg).trans hw)⟩
  rintro i arg hw (rfl | rfl | rfl | rfl | rfl)
  · exact hencoder _ arg hw
  · exact hencoder _ arg hw
  · exact hencoder _ arg hw
  · exact ⟨_, exec_decAngle arg⟩
  · exact ⟨_, exec_decGeneric arg⟩

end Sys2Proof.Machine

/-! SUPPORT. The tracker: what each of its operations leaves, continuity of the total, and runs of samples (R91 to R109). -/

namespace Sys2Proof.Machine

theorem exec_trkInit (w : Frame) (s : State) : exec (.trkInit w) s = execTrkInit w s := rfl

theorem exec_setHome_set {s : State} (hi : s.initd = true) :
    exec .setHome s = .next { s with turn := 0, home := s.last, rsp := some {} } :=
  ifInitialised_set s _ hi

theorem exec_getDelta_set {s : State} (hi : s.initd = true) :
    exec .getDelta s = .next { s with rsp := some { val := s.delta } } :=
  ifInitialised_set s _ hi

/-- Settles O35: the two cases of TRK_INIT, with the report of its word written out. -/
theorem trkInitEstablishesTracker : Obligations.TrkInitEstablishesTracker := by
  refine fun s w => ⟨fun hw => ?_, fun hw => ?_⟩
  · have hp := parityOk_of_even hw
    refine ⟨sampledAngle w s.mirror, sampledAngle_toNat w s.mirror, ?_⟩
    rw [exec_trkInit, execTrkInit_accepted w s hp, initialisedBy, trackerReport_of_good hp]
    rfl
  · have hp := parityOk_of_odd hw
    rw [exec_trkInit, execTrkInit_discarded w s hp, trackerReport_of_bad hp]
    rfl

/-- Settles O42: the gate of R93, then the effect. -/
theorem setHomeAnchorsHere : Obligations.SetHomeAnchorsHere := by
  refine fun s => ⟨exec_setHome_set, fun hi => ?_⟩
  obtain ⟨t, r, ht, hk, hr, -, hwhy⟩ := turnAway_keepsRegisters (x := exec .setHome s) (ifInitialised_clear s _ hi)
  exact ⟨t, r, ht, hk, hr, hwhy⟩

/-- Settles O43: bit 0 of `arg` is its remainder by two. -/
theorem setMirrorWritesMirrorOnly : Obligations.SetMirrorWritesMirrorOnly := by
  refine fun s arg => ⟨performRequest_of_decode s rfl, ?_⟩
  have hbit : arg.getLsbD 0 = decide (arg.toNat % 2 = 1) := by
    rw [BitVec.getLsbD, Nat.testBit_zero]
  rw [← hbit]
  rfl

/-- Settles O46: the delta is read from the total and HOME. -/
theorem getDeltaReadsAngleFromHome : Obligations.GetDeltaReadsAngleFromHome :=
  fun s => ⟨exec_getDelta_set, fun hi => turnAway_keepsRegisters (ifInitialised_clear s _ hi)⟩

/-! ## Words of bad parity -/

theorem runOps_cons_of_next {i : Instr} {s t : State} (h : exec i s = .next t) (is : List Instr) :
    runOps (i :: is) s = runOps is t := by
  simp only [runOps, h]

/-- Any number of discarded samples leave the state they met but for the response (R105). -/
theorem runOps_discarded {bad : List Frame} {s : State} (hs : s.initd = true) (hbad : ∀ w ∈ bad, parityOk w = false) :
    ∃ rsp, ∀ is, runOps (bad.map .trkSample ++ is) s = runOps is { s with rsp := rsp } := by
  induction bad generalizing s with
  | nil => exact ⟨s.rsp, fun is => rfl⟩
  | cons w bad ih =>
    obtain ⟨hw, hrest⟩ := List.forall_mem_cons.mp hbad
    have hexec := (exec_trkSample w s).trans (execTrkSample_discarded w s hs hw)
    obtain ⟨rsp, hrun⟩ := ih (s := s.respond _) hs hrest
    exact ⟨rsp, fun is => (runOps_cons_of_next hexec _).trans (hrun is)⟩

/-- Settles O38: the discarded samples leave a response, which the accepted one replaces. -/
theorem parityMasksCorruptSamples : Obligations.ParityMasksCorruptSamples := by
  intro s bad v hs hbad hv
  obtain ⟨rsp, hrun⟩ := runOps_discarded hs hbad
  have hexec : exec (.trkSample v) { s with rsp := rsp } = .next (sampledBy v s) :=
    execTrkSample_accepted v { s with rsp := rsp } hs hv
  refine ⟨⟨{ s with rsp := rsp }, ?_, rfl, rfl, rfl, rfl, rfl⟩, sampledBy v s, ?_, execTrkSample_accepted v s hs hv⟩
  · rw [← List.append_nil (bad.map _)]
    exact hrun []
  · exact (hrun _).trans (runOps_cons_of_next hexec [])

/-- Settles O40: what an accepted word leaves in the registers is a function of its angle field. -/
theorem trackerReadsOnlyAngleField : Obligations.TrackerReadsOnlyAngleField := by
  intro s w v hs hw hv hfield
  have hangle : sampledAngle v s.mirror = sampledAngle w s.mirror := congrArg (mirrorFn · s.mirror) hfield.symm
  refine ⟨⟨_, _, execTrkSample_accepted w s hs hw, execTrkSample_accepted v s hs hv, ?_⟩,
    ⟨_, _, execTrkInit_accepted w s hw, execTrkInit_accepted v s hv, hangle, rfl, hangle, rfl, rfl⟩⟩
  exact ⟨hangle, congrArg (s.turn + wrap s.last ·) hangle, rfl, rfl, rfl⟩

/-- Settles O41: a discarded or refused sample leaves TURN; an accepted one moves it by WRAP, which the flags compare. -/
theorem turnChangesByAtMostOne : Obligations.TurnChangesByAtMostOne := by
  intro s w
  cases hi : s.initd
  case false => exact ⟨_, _, execTrkSample_refused w s hi, rfl, fun hr => absurd hr Bool.noConfusion, fun _ => rfl⟩
  cases hp : parityOk w
  case false =>
    exact ⟨_, _, execTrkSample_discarded w s hi hp, rfl, fun _ => .inr (.inr ⟨rfl, rfl, rfl⟩), fun _ => rfl⟩
  refine ⟨_, _, execTrkSample_accepted w s hi hp, rfl, fun _ => ?_, fun hr => absurd hr Bool.noConfusion⟩
  have hturn := sampledBy_turn w s
  rcases wrap_cases s.last (sampledAngle w s.mirror) with hk | hk | hk
  · exact .inl ⟨by omega, beq_iff_eq.mpr hk, beq_eq_false_iff_ne.mpr (hk.trans_ne (by decide))⟩
  · exact .inr (.inl ⟨by omega, beq_eq_false_iff_ne.mpr (hk.trans_ne (by decide)), beq_iff_eq.mpr hk⟩)
  · exact .inr (.inr ⟨by omega, beq_eq_false_iff_ne.mpr (hk.trans_ne (by decide)),
      beq_eq_false_iff_ne.mpr (hk.trans_ne (by decide))⟩)

/-! ## Totals -/

theorem State.total_of_turn_zero {t : State} (h : t.turn = 0) : t.total = (t.last.toNat : Int) := by
  rw [State.total_eq, h, Int.zero_mul, Int.zero_add]

theorem State.delta_of_home {t : State} (hturn : t.turn = 0) (hhome : t.home = t.last) : t.delta = 0 := by
  rw [State.delta, State.total_of_turn_zero hturn, hhome, Int.sub_self]

/-- Settles O47: both operations leave TURN 0, HOME at LAST and INITD set. -/
theorem homeGivesZeroDelta : Obligations.HomeGivesZeroDelta := by
  intro s t i hi ht
  have hhomed : t.turn = 0 ∧ t.home = t.last ∧ t.initd = true := by
    obtain ⟨rfl, hs⟩ | ⟨w, rfl, hw⟩ := hi
    · obtain rfl := Host.Outcome.next.inj ((exec_setHome_set hs).symm.trans ht)
      exact ⟨rfl, rfl, hs⟩
    · obtain rfl := Host.Outcome.next.inj ((execTrkInit_accepted w s hw).symm.trans ht)
      exact ⟨rfl, rfl, rfl⟩
  obtain ⟨hturn, hhome, hinitd⟩ := hhomed
  exact ⟨State.delta_of_home hturn hhome ▸ exec_getDelta_set hinitd,
    State.total_of_turn_zero hturn ▸ exec_getTotal_set hinitd⟩

/-- WRAP makes up for the reduction of a circular step within a quadrant, but for one pair (R104). -/
theorem wrap_of_circularStep {p n : Angle} {d : Int} (hlow : -256 ≤ d) (hhigh : d ≤ 256) (h : CircularStep p n d) :
    wrap p n * 1024 + (n.toNat : Int) = (p.toNat : Int) + (if p.toNat = 768 ∧ d = 256 then -768 else d) := by
  have hp := p.isLt
  have hn := n.isLt
  rw [CircularStep] at h
  rw [wrap_eq]
  split
  next hforward => split <;> omega
  next =>
    split
    next hbackward => split <;> omega
    next => split <;> omega

/-- Settles O48: the total moves by what WRAP and the new angle make of the step. -/
theorem acceptedStepMovesTotalByStep : Obligations.AcceptedStepMovesTotalByStep := by
  intro s w d hs hw hlow hhigh hstep
  have hwrap := wrap_of_circularStep hlow hhigh hstep
  have htotal : (sampledBy w s).total = s.total + (if s.last.toNat = 768 ∧ d = 256 then -768 else d) := by
    rw [State.total_eq, State.total_eq, sampledBy_turn, sampledBy_last]
    omega
  refine ⟨_, execTrkSample_accepted w s hs hw, fun hne => ?_, fun heq => ?_⟩
  · rw [htotal, if_neg hne]
  · rw [htotal, if_pos heq]; rfl

/-- Settles O49: by induction on the samples; within the duty no step is the excepted one. -/
theorem totalIsSumOfSteps : Obligations.TotalIsSumOfSteps := by
  intro steps s hs hduty
  suffices h : ∃ t, runOps (steps.map fun x => .trkSample x.1) s = .next t ∧
      t.total = s.total + (steps.map Prod.snd).sum ∧ t.home = s.home ∧ t.mirror = s.mirror ∧ t.initd = true by
    obtain ⟨t, hrun, htotal, hhome, hmirror, hinitd⟩ := h
    exact ⟨t, hrun, htotal, by rw [← htotal, t.total_div_resolution], hhome, hmirror, hinitd⟩
  induction steps generalizing s with
  | nil => exact ⟨s, rfl, by simp, rfl, rfl, hs⟩
  | cons x steps ih =>
    obtain ⟨w, d⟩ := x
    obtain ⟨hw, hlow, hhigh, hstep, hrest⟩ := hduty
    obtain ⟨u, hu, hmoves, -⟩ := acceptedStepMovesTotalByStep s w d hs hw hlow (by omega) hstep
    obtain rfl := Host.Outcome.next.inj ((execTrkSample_accepted w s hs hw).symm.trans hu)
    obtain ⟨t, hrun, htotal, hkept⟩ := ih (sampledBy w s) hs hrest
    refine ⟨t, (runOps_cons_of_next hu _).trans hrun, ?_, hkept⟩
    rw [htotal, hmoves (by omega), List.map_cons, List.sum_cons, Int.add_assoc]

/-- Settles O50: the complement turns a sum into a difference, modulo the resolution. -/
theorem mirrorReversesDirection : Obligations.MirrorReversesDirection := by
  intro x y d h
  have hx := x.isLt
  have hy := y.isLt
  rw [CircularStep, mirrorFn_true_toNat, mirrorFn_true_toNat]
  rw [CircularStep] at h
  omega

theorem turnFits_some_iff_turnWithin (width : Nat) (s : State) :
    turnFits (some width) s.turn = true ↔ s.TurnWithin width :=
  (turnFits_some width s.turn).trans (and_congr_right' Int.le_sub_one_iff.symm)

/-- Settles O51: a finite counter does what the unbounded one does where TURN stays in its range, and is refused elsewhere (U1). -/
theorem finiteTurnWidthRefusesOverflow : Obligations.FiniteTurnWidthRefusesOverflow := by
  intro width s w _ hs hw
  have hfits := turnFits_some_iff_turnWithin width (sampledBy w s)
  refine ⟨_, execTrkSample_accepted w s hs hw, fun hin => ?_, fun hout => ?_⟩
  · rw [sampleAt_accepted _ w s hs hw, if_pos (hfits.mpr hin)]
  · rw [sampleAt_accepted _ w s hs hw, if_neg fun h => hout (hfits.mp h)]

end Sys2Proof.Machine

/-! SUPPORT. The host's pseudo-operations: WRITE, the stalls of READ and WRITE, FILTER and CONSTRUCT (R35, R47, R111, R143). -/

namespace Sys2Proof.Machine

/-! ## WRITE -/

/-- The frame the driver sends to name the register of a write. -/
def writeAddressFrame (a : Operand14) (p : Params := Config.params) : Frame := setPar (cmdBody p.rwWrite a)

/-- The frame the driver sends with the data of a write. -/
def writeDataFrame (x : Operand14) (p : Params := Config.params) : Frame := setPar (wdataBody p.wdataDc x)

theorem execWith_encWaddr_argOf (p : Params) (a : Operand14) (s : State) :
    execWith p (.encWaddr (argOf a)) s = answer s { val := ((writeAddressFrame a p).toNat : Int) } := by
  rw [execWith, encWaddrWith, encodeFrame_inRange _ _ _ (operandInRange_argOf a), operand14_argOf, writeAddressFrame]

theorem execWith_encWdata_argOf (p : Params) (x : Operand14) (s : State) :
    execWith p (.encWdata (argOf x)) s = answer s { val := ((writeDataFrame x p).toNat : Int) } := by
  rw [execWith, encWdataWith, encodeFrame_inRange _ _ _ (operandInRange_argOf x), operand14_argOf, writeDataFrame]

section
variable {α : Type} {p : Params} {i : Instr} {w : World} {f : Frame} (k : Frame → World → Driven α)

/-- An encoder's frame goes out for the next word of the bus. -/
theorem perform_exchange_cons (hf : execWith p i w.block = answer w.block { val := (f.toNat : Int) }) {r : Frame}
    {rest : List Frame} (hrx : w.bus.rx = r :: rest) :
    ((perform i w p).andThen fun x w => (exchange (frameOf x) w).andThen k) =
      k r { block := w.block.respond { val := (f.toNat : Int) }, bus := { sent := w.bus.sent ++ [f], rx := rest } } := by
  rw [perform_of_answer hf, Driven.done_andThen, frameOf_val f _ rfl,
    exchange_cons f r rest { block := w.block.respond _, bus := w.bus } hrx, Driven.done_andThen]

/-- An encoder's frame stalls on a bus with no word to come. -/
theorem perform_exchange_nil (hf : execWith p i w.block = answer w.block { val := (f.toNat : Int) })
    (hrx : w.bus.rx = []) :
    ((perform i w p).andThen fun x w => (exchange (frameOf x) w).andThen k) =
      .stalled { block := w.block.respond { val := (f.toNat : Int) }, bus := w.bus } := by
  rw [perform_of_answer hf, Driven.done_andThen, exchange_nil _ { block := w.block.respond _, bus := w.bus } hrx,
    Driven.stalled_andThen]

end

/-- The block after the two encoders of a write. -/
def afterWriteFrames (a x : Operand14) (s : State) (p : Params := Config.params) : State :=
  (s.respond { val := ((writeAddressFrame a p).toNat : Int) }).respond { val := ((writeDataFrame x p).toNat : Int) }

theorem driverWrite_stalled (a x : Operand14) (w : World) (h : w.bus.rx = []) (p : Params := Config.params) :
    driverWrite a x w p =
      .stalled { block := w.block.respond { val := ((writeAddressFrame a p).toNat : Int) }, bus := w.bus } :=
  perform_exchange_nil _ (execWith_encWaddr_argOf p a w.block) h

theorem driverWrite_stalled_second (a x : Operand14) (w : World) (e : Frame) (h : w.bus.rx = [e])
    (p : Params := Config.params) :
    driverWrite a x w p = .stalled
      { block := afterWriteFrames a x w.block p, bus := { sent := w.bus.sent ++ [writeAddressFrame a p], rx := [] } } :=
  (perform_exchange_cons _ (execWith_encWaddr_argOf p a w.block) h).trans
    (perform_exchange_nil _ (execWith_encWdata_argOf p x _) rfl)

/-- With two words to come both frames of a write go out, and the no-op frame is next. -/
theorem driverWrite_frames (a x : Operand14) (w : World) (e₁ e₂ : Frame) (rest : List Frame)
    (h : w.bus.rx = e₁ :: e₂ :: rest) (p : Params := Config.params) :
    driverWrite a x w p = (exchange p.nopFrame
      { block := afterWriteFrames a x w.block p
        bus := { sent := w.bus.sent ++ [writeAddressFrame a p] ++ [writeDataFrame x p], rx := rest } }).andThen
      fun r w => perform (.decGeneric r) w p :=
  (perform_exchange_cons _ (execWith_encWaddr_argOf p a w.block) h).trans
    (perform_exchange_cons _ (execWith_encWdata_argOf p x _) rfl)

theorem driverWrite_done (a x : Operand14) (w : World) (e₁ e₂ r : Frame) (rest : List Frame)
    (h : w.bus.rx = e₁ :: e₂ :: r :: rest) (p : Params := Config.params) :
    driverWrite a x w p = .done (genericResponse r)
      { block := (afterWriteFrames a x w.block p).respond (genericResponse r)
        bus := { sent := w.bus.sent ++ [writeAddressFrame a p, writeDataFrame x p, p.nopFrame], rx := rest } } := by
  rw [driverWrite_frames a x w e₁ e₂ _ h p, exchange_cons _ r rest _ rfl, Driven.done_andThen,
    perform_of_answer (execWith_decGeneric p r _)]
  simp only [List.append_assoc, List.cons_append, List.nil_append]

theorem driverWrite_stalled_third (a x : Operand14) (w : World) (e₁ e₂ : Frame) (h : w.bus.rx = [e₁, e₂])
    (p : Params := Config.params) :
    driverWrite a x w p = .stalled
      { block := afterWriteFrames a x w.block p
        bus := { sent := w.bus.sent ++ [writeAddressFrame a p] ++ [writeDataFrame x p], rx := [] } } := by
  rw [driverWrite_frames a x w e₁ e₂ _ h p, exchange_nil _ _ rfl, Driven.stalled_andThen]

/-- Settles O53: `driverWrite_done` at the defaults of R4. -/
theorem writeIsThreeExchanges : Obligations.WriteIsThreeExchanges := by
  intro w a x e₁ e₂ r rest hrx
  exact ⟨writeAddressFrame a, writeDataFrame x, genericResponse r, _, execWith_encWaddr_argOf Config.params a w.block,
    execWith_encWdata_argOf Config.params x w.block, driverWrite_done a x w e₁ e₂ r rest hrx, rfl, rfl,
    ⟨rfl, rfl, rfl, rfl, rfl⟩, exec_decGeneric r w.block⟩

/-! ## Stalls -/

theorem driverRead_stalled (a : Operand14) (w : World) (h : w.bus.rx = []) (p : Params := Config.params) :
    driverRead a w p = .stalled { block := afterReadCommand a w.block p, bus := w.bus } := by
  rw [driverRead, fetchRegister_stalled a w h p, Driven.stalled_andThen]

theorem driverRead_stalled_second (a : Operand14) (w : World) (e : Frame) (h : w.bus.rx = [e])
    (p : Params := Config.params) :
    driverRead a w p = .stalled
      { block := afterReadCommand a w.block p, bus := { sent := w.bus.sent ++ [readFrame a p], rx := [] } } := by
  rw [driverRead, fetchRegister_stalled_second a w e h p, Driven.stalled_andThen]

/-- Settles O56: by the number of words to come, which is the number of exchanges that complete. -/
theorem stalledTransportKeepsBlock : Obligations.StalledTransportKeepsBlock := by
  refine ⟨exchange_nil, fun a w hlen => ?_, fun a x w hlen => ?_⟩
  · match hrx : w.bus.rx with
    | [] => exact ⟨_, driverRead_stalled a w hrx, ⟨rfl, rfl, rfl, rfl, rfl⟩, rfl⟩
    | [e] => exact ⟨_, driverRead_stalled_second a w e hrx, ⟨rfl, rfl, rfl, rfl, rfl⟩, List.length_append⟩
    | _ :: _ :: _ => simp [hrx] at hlen
  · match hrx : w.bus.rx with
    | [] => exact ⟨_, driverWrite_stalled a x w hrx, ⟨rfl, rfl, rfl, rfl, rfl⟩, rfl⟩
    | [e] => exact ⟨_, driverWrite_stalled_second a x w e hrx, ⟨rfl, rfl, rfl, rfl, rfl⟩, List.length_append⟩
    | [e₁, e₂] =>
      exact ⟨_, driverWrite_stalled_third a x w e₁ e₂ hrx, ⟨rfl, rfl, rfl, rfl, rfl⟩, by simp⟩
    | _ :: _ :: _ :: _ =>
      simp [hrx] at hlen
      omega

/-! ## FILTER -/

/-- SAMPLE of a word of good parity takes two words off the bus and answers its angle. -/
theorem driverSample_accepted (w : World) (e r : Frame) (rest : List Frame) (hrx : w.bus.rx = e :: r :: rest)
    (hs : w.block.initd = true) (hr : parityOk r = true) :
    ∃ x v, driverSample w = .done x v ∧ x.val = ((sampledAngle r w.block.mirror).toNat : Int) ∧ v.bus.rx = rest ∧
      v.block.initd = true ∧ v.block.mirror = w.block.mirror := by
  have hsample : driverSample w = perform (.trkSample r) _ :=
    congrArg (Driven.andThen · _) (fetchRegister_done Config.addrAngle w e r rest hrx)
  exact ⟨_, _, hsample.trans (perform_of_next (execTrkSample_accepted r _ hs hr) rfl), rfl, rfl, hs, rfl⟩

/-- Samples of one word add up to as many times its angle. -/
theorem sumSamples_constant {r : Frame} (hr : parityOk r = true) (rest echoes : List Frame) (sum : Int) {w : World}
    (hs : w.block.initd = true) (hrx : w.bus.rx = (echoes.flatMap fun e => [e, r]) ++ rest) :
    ∃ v, sumSamples echoes.length sum w =
        .done (sum + echoes.length * ((sampledAngle r w.block.mirror).toNat : Int)) v ∧ v.bus.rx = rest := by
  induction echoes generalizing sum w with
  | nil => exact ⟨w, by simp [sumSamples], hrx⟩
  | cons e echoes ih =>
    obtain ⟨x, u, hsample, hval, hrest, hinitd, hmirror⟩ := driverSample_accepted w e r _ hrx hs hr
    obtain ⟨v, hsum, hv⟩ := ih (sum + x.val) hinitd hrest
    refine ⟨v, ?_, hv⟩
    rw [List.length_cons, sumSamples, hsample, Driven.done_andThen, hsum, hmirror, hval]
    congr 1
    push_cast
    ring

theorem roundedMean_mul (a : Int) {n : Nat} (h : 1 ≤ n) : roundedMean (n * a) n = a := by
  rw [roundedMean, Int.add_ediv_of_dvd_left (Dvd.intro a rfl), Int.mul_ediv_cancel_left a (by omega),
    Int.ediv_eq_zero_of_lt (by omega) (by omega), Int.add_zero]

/-- Settles O54: the mean of n equal angles, the rounding term below n. -/
theorem filterOfConstantStream : Obligations.FilterOfConstantStream := by
  refine ⟨fun n w echoes r rest hn hlen hs hr hrx => ?_, fun w => rfl⟩
  subst hlen
  obtain ⟨v, hsum, hv⟩ := sumSamples_constant hr rest echoes 0 hs hrx
  refine ⟨v, ?_, hv⟩
  rw [driverFilter, if_neg (by omega), hsum, Driven.done_andThen, Int.zero_add, roundedMean_mul _ hn]

/-! ## CONSTRUCT -/

/-- The first step of CONSTRUCT settles the direction sense and leaves the bus. -/
theorem chooseMirror_done (m : Option Bool) (w : World) (p : Params := Config.params) :
    ∃ x v, chooseMirror m w p = .done x v ∧ v.bus = w.bus ∧ v.block.mirror = m.getD w.block.mirror := by
  cases m with
  | none => exact ⟨_, w, rfl, rfl, rfl⟩
  | some b => exact ⟨_, _, perform_of_next (p := p) (i := .setMirror b) rfl rfl, rfl, rfl⟩

/-- What a number of reads of the angle register send: each a read command and a no-op frame (R34). -/
def angleReads (n : Nat) (p : Params := Config.params) : List Frame :=
  (List.replicate n [readFrame p.addrAngle p, p.nopFrame]).flatten

theorem angleReads_add (m n : Nat) (p : Params) : angleReads m p ++ angleReads n p = angleReads (m + n) p := by
  rw [angleReads, angleReads, angleReads, List.replicate_add, List.flatten_append]

theorem warmUp_done (w : World) (u₁ u₂ u₃ u₄ : Frame) (rest : List Frame)
    (hrx : w.bus.rx = u₁ :: u₂ :: u₃ :: u₄ :: rest) (p : Params := Config.params) :
    warmUp w p = .done (readResponse p.addrAngle u₄ p)
      { block := (w.block.respond (readResponse p.addrAngle u₂ p)).respond (readResponse p.addrAngle u₄ p)
        bus := { sent := w.bus.sent ++ angleReads 2 p, rx := rest } } := by
  rw [warmUp, driverRead_done _ w u₁ u₂ _ hrx p, Driven.done_andThen, driverRead_done _ _ u₃ u₄ rest rfl p,
    List.append_assoc]
  rfl

/-- One round of the initial read: a read of the angle register, its word given to TRK_INIT. -/
theorem initialRead_succ (fuel : Nat) (w : World) (e r : Frame) (rest : List Frame) (hrx : w.bus.rx = e :: r :: rest)
    (p : Params) :
    initialRead (fuel + 1) w p =
      (perform (.trkInit r)
        { block := afterReadCommand p.addrAngle w.block p
          bus := { sent := w.bus.sent ++ angleReads 1 p, rx := rest } } p).andThen
        fun t w => if t.accepted then .done t w else initialRead fuel w p := by
  rw [initialRead, fetchRegister_done _ w e r rest hrx p, Driven.done_andThen]
  rfl

/-- What an accepted TRK_INIT answers (R91). -/
def initResponse (word : Frame) (m : Bool) : Response :=
  { trackerReport word with accepted := true, val := ((sampledAngle word m).toNat : Int) }

theorem perform_trkInit_accepted {r : Frame} (hr : parityOk r = true) (w : World) (p : Params) :
    perform (.trkInit r) w p =
      .done (initResponse r w.block.mirror) { block := initialisedBy r w.block, bus := w.bus } :=
  perform_of_next (execTrkInit_accepted r w.block hr) rfl

theorem perform_trkInit_discarded {r : Frame} (hr : parityOk r = false) (w : World) (p : Params) :
    perform (.trkInit r) w p =
      .done (trackerReport r) { block := w.block.respond (trackerReport r), bus := w.bus } :=
  perform_of_answer (execTrkInit_discarded r w.block hr)

theorem initialRead_accepts (fuel : Nat) (w : World) (e : Frame) {r : Frame} (rest : List Frame)
    (hrx : w.bus.rx = e :: r :: rest) (hr : parityOk r = true) (p : Params) :
    initialRead (fuel + 1) w p = .done (initResponse r w.block.mirror)
      { block := initialisedBy r (afterReadCommand p.addrAngle w.block p)
        bus := { sent := w.bus.sent ++ angleReads 1 p, rx := rest } } := by
  rw [initialRead_succ fuel w e r rest hrx p, perform_trkInit_accepted hr, Driven.done_andThen]
  exact if_pos rfl

theorem initialRead_repeats (fuel : Nat) (w : World) (e : Frame) {r : Frame} (rest : List Frame)
    (hrx : w.bus.rx = e :: r :: rest) (hr : parityOk r = false) (p : Params) :
    initialRead (fuel + 1) w p = initialRead fuel
      { block := (afterReadCommand p.addrAngle w.block p).respond (trackerReport r)
        bus := { sent := w.bus.sent ++ angleReads 1 p, rx := rest } } p := by
  rw [initialRead_succ fuel w e r rest hrx p, perform_trkInit_discarded hr, Driven.done_andThen]
  exact if_neg Bool.noConfusion

/-- The initial read goes on past words of bad parity to the first of good parity, which initialises the tracker. -/
theorem initialRead_done {bad : List (Frame × Frame)} (hbad : ∀ x ∈ bad, parityOk x.2 = false) (e : Frame) {r : Frame}
    (hr : parityOk r = true) (rest : List Frame) (p : Params) {fuel : Nat} (hfuel : bad.length < fuel) {w : World}
    (hrx : w.bus.rx = (bad.flatMap fun x => [x.1, x.2]) ++ e :: r :: rest) :
    ∃ s, s.mirror = w.block.mirror ∧ initialRead fuel w p = .done (initResponse r w.block.mirror)
      { block := initialisedBy r s
        bus := { sent := w.bus.sent ++ angleReads (1 + bad.length) p, rx := rest } } := by
  induction bad generalizing fuel w with
  | nil =>
    obtain ⟨fuel, rfl⟩ := Nat.exists_eq_add_one.mpr hfuel
    exact ⟨_, rfl, initialRead_accepts fuel w e rest hrx hr p⟩
  | cons b bad ih =>
    obtain ⟨hb, hrest⟩ := List.forall_mem_cons.mp hbad
    obtain ⟨fuel, rfl⟩ := Nat.exists_eq_add_one.mpr (Nat.zero_lt_of_lt hfuel)
    have hrepeat := initialRead_repeats fuel w b.1 _ hrx hb p
    obtain ⟨s, hmirror, hread⟩ := ih hrest (Nat.lt_of_succ_lt_succ hfuel)
      (w := { block := (afterReadCommand p.addrAngle w.block p).respond (trackerReport b.2)
              bus := { sent := w.bus.sent ++ angleReads 1 p, rx := _ } }) rfl
    refine ⟨s, hmirror, hrepeat.trans (hread.trans ?_)⟩
    rw [List.append_assoc, angleReads_add, List.length_cons, Nat.add_comm bad.length]
    rfl

/-- CONSTRUCT with two words for each of its reads: two warm-up reads, the initial read with its repeats, then the tracker
is initialised in the direction sense chosen. -/
theorem driverConstruct_done (m : Option Bool) {w : World} {u₁ u₂ u₃ u₄ : Frame} {bad : List (Frame × Frame)} {e r : Frame}
    {rest : List Frame} (hrx : w.bus.rx = u₁ :: u₂ :: u₃ :: u₄ :: ((bad.flatMap fun x => [x.1, x.2]) ++ e :: r :: rest))
    (hbad : ∀ x ∈ bad, parityOk x.2 = false) (hr : parityOk r = true) (p : Params := Config.params) :
    ∃ s, s.mirror = m.getD w.block.mirror ∧ driverConstruct m w p = .done (initResponse r (m.getD w.block.mirror))
      { block := initialisedBy r s
        bus := { sent := w.bus.sent ++ angleReads (3 + bad.length) p, rx := rest } } := by
  obtain ⟨x, w₁, hchoose, hbus, hmirror⟩ := chooseMirror_done m w p
  have hwarm := warmUp_done w₁ u₁ u₂ u₃ u₄ _ (hbus ▸ hrx) p
  have hfuel : bad.length < ((bad.flatMap fun x => [x.1, x.2]) ++ e :: r :: rest).length + 1 := by
    simp [List.length_flatMap]
    omega
  obtain ⟨s, hs, hread⟩ := initialRead_done hbad e hr rest p hfuel
    (w := { block := (w₁.block.respond (readResponse p.addrAngle u₂ p)).respond (readResponse p.addrAngle u₄ p)
            bus := { sent := w₁.bus.sent ++ angleReads 2 p, rx := _ } }) rfl
  refine ⟨s, hs.trans hmirror, ?_⟩
  rw [driverConstruct, hchoose, Driven.done_andThen, hwarm, Driven.done_andThen, hread, List.append_assoc, angleReads_add,
    ← Nat.add_assoc, hbus, ← hmirror]
  rfl

/-- Settles O55: `driverConstruct_done` at the defaults of R4, and the registers of an initialised tracker. -/
theorem constructEstablishesTracker : Obligations.ConstructEstablishesTracker := by
  intro w m u₁ u₂ u₃ u₄ bad e r rest hrx hbad hr
  obtain ⟨s, hs, hdone⟩ := driverConstruct_done m hrx hbad hr
  have hangle : mirrorFn (angleField r) s.mirror = sampledAngle r (m.getD w.block.mirror) := hs ▸ rfl
  have hdelta := exec_getDelta_set (s := initialisedBy r s) rfl
  rw [State.delta_of_home rfl rfl] at hdelta
  exact ⟨_, _, readFrame Config.addrAngle, execEncRead_argOf Config.addrAngle w.block, hdone, rfl, rfl, rfl, hs, hangle,
    hangle, rfl, rfl, hdelta⟩

end Sys2Proof.Machine

/-! SUPPORT. The OPEN parameters: the operations they do not reach, and TURN in a finite counter (R4, R11; U1). -/

namespace Sys2Proof.Machine

/-- Settles O57: the defaults of R4, one by one. -/
theorem defaultParametersGiveTheMachine : Obligations.DefaultParametersGiveTheMachine :=
  ⟨execWith_params, fun _ => rfl, rfl, rfl, rfl, rfl, rfl, rfl⟩

/-- A wide operand is refused by every encoder, whatever the parameters. -/
theorem execWith_of_not_wellFormed (p : Params) {i : Instr} (s : State) (h : ¬WellFormed i) :
    execWith p i s = turnAway s .operandRange := by
  have hrange : ∀ {arg : Frame}, ¬decide (FitsOperand14 arg) = true → operandInRange arg = false := fun hw =>
    (operandInRange_eq_wellFormed _).trans (Bool.eq_false_of_not_eq_true hw)
  cases i with
  | encRead arg => exact encodeFrame_outOfRange _ arg s (hrange h)
  | encWaddr arg => exact encodeFrame_outOfRange _ arg s (hrange h)
  | encWdata arg => exact encodeFrame_outOfRange _ arg s (hrange h)
  | _ => exact absurd rfl h

theorem stepWith_of_reset (p : Params) {s : State} (h : s.portNow.reset = true) :
    stepWith p s = .next (s.portAdvance.applyReset p) := by
  rw [stepWith, portStep, if_pos h]

/-- Settles O59: what reads no parameter, what is refused, TRK_SAMPLE, and reset. -/
theorem parametersReachOnlyTheirOperations : Obligations.ParametersReachOnlyTheirOperations := by
  refine ⟨fun p q i s h => ?_, fun p q w s h => ?_, fun p s h => ⟨_, stepWith_of_reset p h, rfl, rfl, rfl⟩,
    fun p => ⟨rfl, rfl, rfl⟩⟩
  · rcases h with hfree | hwide
    · rw [execWith_of_not_usesParams p s hfree, execWith_of_not_usesParams q s hfree]
    · rw [execWith_of_not_wellFormed p s hwide, execWith_of_not_wellFormed q s hwide]
  · rw [execWith, execWith, trkSampleWith, trkSampleWith, h]

/-! ## TURN in a finite counter -/

/-- What an operation does to TURN with a counter of the given width: it keeps TURN, makes it 0 or moves it by WRAP to a
value that fits, or is refused because WRAP would move it to one that does not. -/
inductive TurnMoves (width : Option Nat) (s : State) (x : Result) : Prop where
  | keeps (t : State) (h : x = .next t) (hturn : t.turn = s.turn)
  | zeroes (t : State) (h : x = .next t) (hturn : t.turn = 0)
  | fits (t : State) (h : x = .next t) (hfits : turnFits width t.turn = true)
  | overflows (a : Angle) (h : x = .refused .turnOutOfRange) (hfits : turnFits width (s.turn + wrap s.last a) = false)

theorem encodeFrame_turnMoves (width : Option Nat) (body : Operand14 → Frame) (arg : Frame) (s : State) :
    TurnMoves width s (encodeFrame body arg s) := by
  obtain ⟨h, -⟩ | ⟨f, h, -⟩ := encodeFrame_cases body arg s
  · exact .keeps _ h rfl
  · exact .keeps _ h rfl

theorem sampleAt_turnMoves (width : Option Nat) (w : Frame) (s : State) : TurnMoves width s (sampleAt width w s) := by
  cases hs : s.initd
  case false => exact .keeps _ (sampleAt_refused width w s hs) rfl
  cases hp : parityOk w
  case false => exact .keeps _ (sampleAt_discarded width w s hs hp) rfl
  have hsample := sampleAt_accepted width w s hs hp
  cases hfits : turnFits width (sampledBy w s).turn
  case true => exact .fits _ (hsample.trans (if_pos hfits)) hfits
  case false =>
    exact .overflows (sampledAngle w s.mirror) (hsample.trans (if_neg (Bool.eq_false_iff.mp hfits))) hfits

/-- An operation that reads no parameter keeps TURN or makes it 0: only TRK_SAMPLE moves it by a step. -/
theorem exec_turnMoves (width : Option Nat) {i : Instr} (s : State) (h : usesParams i = false) :
    TurnMoves width s (exec i s) := by
  cases exec_answers i s with
  | wide h => exact .keeps _ h rfl
  | early h => exact .keeps _ h rfl
  | plain r h => exact .keeps _ h rfl
  | discarded w r h => exact .keeps _ h rfl
  | initialised w hi hp h => exact .zeroes _ h rfl
  | sampled w hi => exact absurd (hi ▸ h) Bool.noConfusion
  | homed hi hs h => exact .zeroes _ h rfl
  | mirrored m hi h => exact .keeps _ h rfl

theorem execWith_turnMoves (p : Params) (i : Instr) (s : State) : TurnMoves p.turnWidth s (execWith p i s) := by
  cases hi : usesParams i
  case false => exact execWith_of_not_usesParams p s hi ▸ exec_turnMoves p.turnWidth s hi
  cases i with
  | encRead arg => exact encodeFrame_turnMoves _ _ arg s
  | encWaddr arg => exact encodeFrame_turnMoves _ _ arg s
  | encWdata arg => exact encodeFrame_turnMoves _ _ arg s
  | trkSample w => exact sampleAt_turnMoves p.turnWidth w s
  | _ => exact absurd hi Bool.noConfusion

theorem stepWith_turnMoves (p : Params) (s : State) : TurnMoves p.turnWidth s (stepWith p s) := by
  cases stepWith_steps p s with
  | reset hr h => exact .zeroes _ h rfl
  | idle hr hv h => exact .keeps _ h rfl
  | performs i hr hv hd h =>
    rw [h]
    cases execWith_turnMoves p i s.portAdvance with
    | keeps t h hturn => exact .keeps t h hturn
    | zeroes t h hturn => exact .zeroes t h hturn
    | fits t h hfits => exact .fits t h hfits
    | overflows a h hfits => exact .overflows a h hfits
  | reserved op hr hv hd h => exact .keeps _ h rfl

/-- 0 is in the range of every counter of at least one bit. -/
theorem turnWithin_of_zero {t : State} (width : Nat) (h : t.turn = 0) : t.TurnWithin width := by
  have hpos : (0 : Int) < 2 ^ (width - 1) := by positivity
  rw [State.TurnWithin, h]
  omega

/-- A step of WRAP leaves the range only from one of its ends. -/
theorem turn_at_end_of_overflow {width : Nat} {s : State} {a : Angle} (hs : s.TurnWithin width)
    (h : turnFits (some width) (s.turn + wrap s.last a) = false) :
    s.turn = -(2 ^ (width - 1) : Int) ∨ s.turn = (2 ^ (width - 1) : Int) - 1 := by
  obtain ⟨hlow, hhigh⟩ := hs
  rw [← Bool.not_eq_true, turnFits_some] at h
  have hwrap := wrap_cases s.last a
  omega

/-- Settles O60: of the moves of TURN only a refused one would leave the range, and without a width none is refused. -/
theorem turnStaysWithinItsWidth : Obligations.TurnStaysWithinItsWidth := by
  refine ⟨fun p width s hp _ hs => ?_, fun p width _ => turnWithin_of_zero width rfl, fun p s hp => ?_⟩
  · cases stepWith_turnMoves p s with
    | keeps t h hturn => exact .inl ⟨t, h, by rwa [State.TurnWithin, hturn]⟩
    | zeroes t h hturn => exact .inl ⟨t, h, turnWithin_of_zero width hturn⟩
    | fits t h hfits => exact .inl ⟨t, h, (turnFits_some_iff_turnWithin width t).mp (hp ▸ hfits)⟩
    | overflows a h hfits => exact .inr ⟨h, turn_at_end_of_overflow hs (hp ▸ hfits)⟩
  · cases stepWith_turnMoves p s with
    | keeps t h => exact ⟨t, h⟩
    | zeroes t h => exact ⟨t, h⟩
    | fits t h => exact ⟨t, h⟩
    | overflows a h hfits =>
      rw [hp, turnFits_none] at hfits
      exact absurd hfits Bool.noConfusion

end Sys2Proof.Machine
